-- ==== Sys2Proof/Word.lean ====
section
/-! DEFINITION. The byte of the seat link and the plainest operations on tables of fixed length. -/

namespace Sys2Proof

/-- One byte on the seat link (10 R185). -/
abbrev Byte := BitVec 8

/-- A table with one entry changed by a function. -/
def upd {α : Type} {n : Nat} (v : Vector α n) (i : Fin n) (f : α → α) : Vector α n :=
  v.set i (f v[i])

@[simp] theorem upd_self {α : Type} {n : Nat} (v : Vector α n) (i : Fin n) (f : α → α) :
    (upd v i f)[i] = f v[i] := by
  simp [upd]

theorem upd_other {α : Type} {n : Nat} (v : Vector α n) (i j : Fin n) (f : α → α) (h : j ≠ i) :
    (upd v i f)[j] = v[j] := by
  have hv : i.val ≠ j.val := fun e => h (Fin.ext e.symm)
  simp [upd, hv]

/-- The ceiling of a quotient: `a / b` rounded up to the next whole number. -/
def ceilDiv (a b : Nat) : Nat := (a + (b - 1)) / b

/-- The distance between two positions. -/
def distance (a b : Nat) : Nat := (a - b) + (b - a)

/-- A value set to the nearer of two limits where it lies outside them. -/
def clamp (lo hi x : Nat) : Nat := max lo (min hi x)

end Sys2Proof
end

