-- ==== Sys2Proof/Config.lean ====
section
/-! DEFINITION. The fixed times, levels and ranges of the part, and its free values. -/

namespace Sys2Proof.Config

/-- Greatest position in Hall counts (R1, R3). -/
def maxPosition : Nat := 8191
/-- Settle timer (R7), in ms. -/
def settleMs : Nat := 30
/-- Start grace (R5, R13), in ms. -/
def graceMs : Nat := 150
/-- Least travel a referencing may learn (R19). -/
def minTravel : Nat := 64
/-- Counted stalls in one direction that latch an axis (R14). -/
def stallLimit : Nat := 3
/-- Hysteresis of the cell pressure band (R117), in half-kPa. -/
def hysteresis : Nat := 4
/-- Pressure to which a cell with target 0 is vented (R115, R117), in half-kPa. -/
def emptyPressure : Nat := 2
/-- Greatest pressure recorded (R115), in half-kPa. -/
def maxPressure : Nat := 120
/-- Cumulative fill time that means a leak (R123), in ms. -/
def leakMs : Nat := 8000
/-- Pump run time after which a rest is due (R121), in ms. -/
def runLimitMs : Nat := 120000
/-- Time without running after which the pump's run time is 0 (R121), in ms. -/
def restMs : Nat := 30000
/-- Trip level of the pump current (R122), in 0.1 A. -/
def pumpTrip : Nat := 150
/-- Pump current below which its latch may be cleared (R122), in 0.1 A. -/
def pumpQuiet : Nat := 5
/-- Length of a boost (R140), in ms. -/
def boostMs : Nat := 600000
/-- Length of a PWM period (R142), in ms. -/
def periodMs : Nat := 1000
/-- Store window (R110), in ms. -/
def windowMs : Nat := 5000
/-- Length of the brace-ack PULSE (R168), in ms. -/
def ackPulseMs : Nat := 50
/-- Steps after which a chain that goes on is aborted (R74). -/
def loopLimit : Nat := 64
/-- Most axes with a brace target (R23). -/
def maxBraceAxes : Nat := 3
/-- Greatest lumbar target a profile holds (R82, R86), in half-kPa. -/
def maxLumbar : Nat := 80
/-- Greatest payload of a frame (R185). -/
def maxPayload : Nat := 61

/-- How many requests between blocks one step carries out at most (log 4). -/
def agendaFuel : Nat := 20000

/-- The hardware issue number of IDENTIFY (R182), which the spec does not state: a free value (log 11). -/
opaque hardwareIssue : Nat
/-- The format number of the retained records (R182, R186), which the spec does not state: a free value
(log 11). -/
opaque recordFormat : Nat
/-- Whether a temperature reading half way between two half-degree steps (here in hundredths of a
degree) is rounded up (R137 says 'nearest' and not which way a tie goes): a free value (log 10). -/
opaque tieRoundsUp : Int → Bool
/-- Whether a time left (second argument, in ms) that is not a whole number of a notice's units (first argument, in ms) is shown
rounded up, which R114 and R135 do not say: a free value (log 34). -/
opaque unitRoundsUp : Nat → Nat → Bool

end Sys2Proof.Config
end

