-- ==== Sys2Proof/Syntax.lean ====
section
/-! DEFINITION. The commands the SQ28 takes: one constructor for each row of spec/opcode_table.json.

A host command carries the tag and the payload bytes of its frame (10 R185). An event carries the axis,
cell, zone, contact or button concerned and the reading taken, where there is one. -/

namespace Sys2Proof

/-- A direction of motion: + is the one in which the axis's counts increase (00 §4.3, 01 R4). -/
inductive Dir where
  | plus | minus
  deriving DecidableEq, Repr

/-- The twenty contacts of the switch pack (06 §6.1). `mem` counts from 0: M1 is `mem 0`. -/
inductive Contact where
  | axis (a : Fin 8) (d : Dir)
  | set
  | mem (m : Fin 3)
  deriving DecidableEq, Repr

/-- What the part's current and voltage sensing shows at the moment a command is taken (log 7). -/
structure Sense where
  /-- pump current, in 0.1 A (07 R122, R135; the unit is the model's choice, log 47) -/
  pumpCurrent : Nat
  /-- seat supply voltage, in 0.1 V (03 R60) -/
  supply : Nat
  deriving DecidableEq, Repr

/-- The two edges of the RESET pin (11 R189). -/
inductive PinEdge where
  | low | released
  deriving DecidableEq, Repr

/-- The rows of spec/opcode_table.json, in the table's order. -/
inductive Instr where
  /-- IDENTIFY (R182) -/
  | identify (tag : Byte) (payload : List Byte)
  /-- STATUS (R182); `sense` is what the part senses when it makes the reply -/
  | status (tag : Byte) (payload : List Byte) (sense : Sense)
  /-- CONFIG_SET (R183) -/
  | configSet (tag : Byte) (payload : List Byte)
  /-- CONFIG_GET (R183) -/
  | configGet (tag : Byte) (payload : List Byte)
  /-- FAULT_CLEAR (R184); `pumpCurrent` is the pump current at that moment, in 0.1 A (log 47) -/
  | faultClear (tag : Byte) (payload : List Byte) (pumpCurrent : Nat)
  /-- VEHICLE (R79) -/
  | vehicle (tag : Byte) (payload : List Byte)
  /-- MOVE (R33) -/
  | move (tag : Byte) (payload : List Byte)
  /-- JOG (R33) -/
  | jog (tag : Byte) (payload : List Byte)
  /-- HALT (R40) -/
  | halt (tag : Byte) (payload : List Byte)
  /-- REFERENCE (R18) -/
  | reference (tag : Byte) (payload : List Byte)
  /-- PLAN_LOAD (R62) -/
  | planLoad (tag : Byte) (payload : List Byte)
  /-- PLAN_RUN (R64) -/
  | planRun (tag : Byte) (payload : List Byte)
  /-- PLAN_CANCEL (R78) -/
  | planCancel (tag : Byte) (payload : List Byte)
  /-- RECALL (R92) -/
  | recall (tag : Byte) (payload : List Byte)
  /-- PROFILE_STORE (R85) -/
  | profileStore (tag : Byte) (payload : List Byte)
  /-- PROFILE_WRITE (R88) -/
  | profileWrite (tag : Byte) (payload : List Byte)
  /-- PROFILE_READ (R90) -/
  | profileRead (tag : Byte) (payload : List Byte)
  /-- PROFILE_ERASE (R89) -/
  | profileErase (tag : Byte) (payload : List Byte)
  /-- CELL_SET (R125) -/
  | cellSet (tag : Byte) (payload : List Byte)
  /-- PATTERN_LOAD_HEADER (R128): PATTERN_LOAD with a payload that is no mask part -/
  | patternLoadHeader (tag : Byte) (payload : List Byte)
  /-- PATTERN_LOAD_MASK (R128): PATTERN_LOAD with a mask part -/
  | patternLoadMask (tag : Byte) (payload : List Byte)
  /-- PATTERN_SELECT (R131) -/
  | patternSelect (tag : Byte) (payload : List Byte)
  /-- MASSAGE_START (R129) -/
  | massageStart (tag : Byte) (payload : List Byte)
  /-- MASSAGE_STOP (R133) -/
  | massageStop (tag : Byte) (payload : List Byte)
  /-- HEAT_SET (R138) -/
  | heatSet (tag : Byte) (payload : List Byte)
  /-- BRACE (R150) -/
  | brace (tag : Byte) (payload : List Byte)
  /-- BRACE_HOLD (R162) -/
  | braceHold (tag : Byte) (payload : List Byte)
  /-- BRACE_RELEASE (R160): BRACE_RELEASE with a payload other than the after-crash flag set -/
  | braceRelease (tag : Byte) (payload : List Byte)
  /-- BRACE_RELEASE_AFTER_CRASH (R161): BRACE_RELEASE with the after-crash flag, payload byte 1 -/
  | braceReleaseAfterCrash (tag : Byte)
  /-- SUPPLY_LIMIT (R45) -/
  | supplyLimit (tag : Byte) (payload : List Byte)
  /-- SHUTDOWN (R190) -/
  | shutdown (tag : Byte) (payload : List Byte)
  /-- RESTART (R189) -/
  | restart (tag : Byte) (payload : List Byte)
  /-- UNKNOWN_CODE (R173): a command whose code is not in the command code table -/
  | unknownCode (code tag : Byte) (payload : List Byte)
  /-- FRAME_RECEIVED (R172): the bytes of a complete frame, from the length byte to the second check byte -/
  | frameReceived (frame : List Byte)
  /-- BYTE_ERROR (R171) -/
  | byteError
  /-- FRAME_GAP (R171) -/
  | frameGap
  /-- BREAK (R179) -/
  | lineBreak
  /-- FRAME_SENT (R177) -/
  | frameSent
  /-- SILENCE_TIMER_EXPIRY (R180) -/
  | silenceTimerExpiry
  /-- WAKE_DISCARD_END (R191) -/
  | wakeDiscardEnd
  /-- HALL_EDGE (R3) -/
  | hallEdge (a : Fin 8)
  /-- STALL (R13) -/
  | stall (a : Fin 8)
  /-- SETTLE (R8) -/
  | settle (a : Fin 8)
  /-- OVERCURRENT_TRIP (R15) -/
  | overcurrentTrip (a : Fin 8)
  /-- LEG_LIMIT (R21) -/
  | legLimit (a : Fin 8)
  /-- SUPPLY_LOW (R56), with the reading that completed the 100 ms, in 0.1 V -/
  | supplyLow (reading : Nat)
  /-- SUPPLY_NORMAL (R55), with the reading that completed the 100 ms, in 0.1 V -/
  | supplyNormal (reading : Nat)
  /-- PAUSE_EXPIRY (R70) -/
  | pauseExpiry
  /-- RETAINED_WRITE_END (R187) -/
  | retainedWriteEnd
  /-- AXIS_CONTACT_PRESS (R105) -/
  | axisContactPress (a : Fin 8) (d : Dir)
  /-- SET_PRESS (R110) -/
  | setPress
  /-- MEMORY_BUTTON_PRESS (R111); button 0 is M1 -/
  | memoryButtonPress (m : Fin 3)
  /-- CONTACT_RELEASE (R106) -/
  | contactRelease (c : Contact)
  /-- STORE_WINDOW_EXPIRY (R110) -/
  | storeWindowExpiry
  /-- PRESSURE_READING (R117), in half-kPa -/
  | pressureReading (c : Fin 12) (reading : Nat)
  /-- LEAK (R123) -/
  | leak (c : Fin 12)
  /-- PUMP_OVERCURRENT (R122), with the current in 0.1 A -/
  | pumpOvercurrent (current : Nat)
  /-- PUMP_REST_DUE (R121) -/
  | pumpRestDue
  /-- PUMP_REST_END (R121) -/
  | pumpRestEnd
  /-- STEP_TIMER_EXPIRY (R130) -/
  | stepTimerExpiry
  /-- SESSION_TIMER_EXPIRY (R132) -/
  | sessionTimerExpiry
  /-- TEMPERATURE_READING (R137), in hundredths of a degree Celsius -/
  | temperatureReading (z : Fin 4) (reading : Int)
  /-- PWM_PERIOD_START (R142) -/
  | pwmPeriodStart (z : Fin 4)
  /-- PWM_ON_TIME_END (R142) -/
  | pwmOnTimeEnd (z : Fin 4)
  /-- BOOST_EXPIRY (R140) -/
  | boostExpiry (z : Fin 4)
  /-- BRACE_LINE_ACTIVATION (R150) -/
  | braceLineActivation
  /-- BRACE_LINE_INACTIVE (R150) -/
  | braceLineInactive
  /-- DEADLINE_EXPIRY (R157) -/
  | deadlineExpiry
  /-- HOLD_TIMER_EXPIRY (R163) -/
  | holdTimerExpiry
  /-- ACK_PULSE_END (R168) -/
  | ackPulseEnd
  /-- POWER_ON (R189) -/
  | powerOn
  /-- RESET_PIN (R189): the pin goes low, or is released after having been low -/
  | resetPin (edge : PinEdge)
  /-- STARTING_END (R189) -/
  | startingEnd
  /-- LINK_ACTIVITY (R191) -/
  | linkActivity
  /-- WAKE (R191) -/
  | wake
  /-- BYTE_RECEIVED (R171) -/
  | byteReceived (b : Byte)
  /-- BREAK_END (R179) -/
  | breakEnd
  deriving DecidableEq, Repr

end Sys2Proof
end

