-- ==== Sys2Proof/Machine/State.lean ====
section
/-! DEFINITION. The state of the SQ28, block by block, and the machine after reset.

INVENTORY.md lists every field with the rule that names it. What the spec derives from other fields
(soft limits, axis grants, motor units, pump request, pump latch, heater units, output levels) has no
field of its own: it is computed in Machine/Ops.lean (log 12). Times are in milliseconds. -/

namespace Sys2Proof.Machine

/-! ### Axis drives (chapter 1) -/

/-- The party holding an axis (R26). -/
inductive Owner where
  | none | brace | switch | link | plan
  deriving DecidableEq, Repr

/-- The reasons of aborts, preemptions and withdrawals (R11, R41, R76). -/
inductive Reason where
  | switch | brace | axisFault | vehicleMoving | brokenLink | loopLimit | shutdown | replaced | cancel
  deriving DecidableEq, Repr

/-- The kind of a move (R1). -/
inductive MoveKind where
  | targeted | jog | reference
  deriving DecidableEq, Repr

/-- The drives of a referencing (R1, R18 to R20). -/
inductive Leg where
  | leg1 | leg2 | backoff
  deriving DecidableEq, Repr

/-- The cause of a stop request; PREEMPT carries its reason (R11). -/
inductive StopCause where
  | owner
  | preempt (r : Reason)
  deriving DecidableEq, Repr

/-- Move results (R12). `referenced` says whether the back-off arrived. -/
inductive MoveResult where
  | reached | missed | stopped
  | aborted (r : Reason)
  | stalled | endStop | tripped
  | referenced (arrived : Bool)
  | referenceFailed
  deriving DecidableEq, Repr

/-- Activity states (R1). -/
inductive Activity where
  | idle | running | stopping | faulted
  deriving DecidableEq, Repr

/-- Axis latches (R1). -/
inductive AxisLatch where
  | none | overcurrent | stall | referenceFailed
  deriving DecidableEq, Repr

/-- What the motor bridge is doing (01 §1.3). -/
inductive Bridge where
  | off | driven | braked
  deriving DecidableEq, Repr

/-- What ended the drive an axis is settling from: the cases of R8 depend on it. `endStop` is the
uncounted stall of R14, case 1. -/
inductive DriveEnd where
  | coastLead | stall | endStop | stopped | legLimit | tripped
  deriving DecidableEq, Repr

/-- The brace target item of an axis (R23, R151). -/
inductive BraceTarget where
  | none | lower | upper
  | absolute (position : Nat)
  deriving DecidableEq, Repr

/-- The move record (R1), with the settings taken at the start (R5). -/
structure Move where
  kind : MoveKind
  target : Option Nat
  leg : Option Leg
  corrective : Bool
  stopCause : Option StopCause
  ended : Option DriveEnd
  jogDir : Option Dir
  ratedUnits : Nat
  stallWindow : Nat
  coastLead : Nat
  tolerance : Nat
  deriving DecidableEq, Repr

/-- The per-axis configuration items (R23). -/
structure AxisConfig where
  ratedUnits : Nat
  stallWindow : Nat
  coastLead : Nat
  tolerance : Nat
  margin : Nat
  braceTarget : BraceTarget
  deriving DecidableEq, Repr

/-- An axis record (R1) with its configuration, its bridge and its timers. -/
structure Axis where
  referenced : Bool
  activity : Activity
  position : Nat
  travel : Option Nat
  direction : Dir
  move : Option Move
  stallCount : Nat
  stallDir : Dir
  latch : AxisLatch
  lastResult : Option MoveResult
  bridge : Bridge
  /-- settle timer (R7) -/
  settleLeft : Option Nat
  /-- time since the drive began (R13, R19) -/
  driveTime : Nat
  /-- time since the last edge of the drive (R13) -/
  edgeTime : Nat
  cfg : AxisConfig
  deriving DecidableEq, Repr

/-! ### Claim unit (chapter 2) -/

/-- The claimants HELD on an axis (R26). -/
structure HeldSet where
  brace : Bool
  switch : Bool
  plan : Bool
  deriving DecidableEq, Repr

/-- A held drive slot (R27). -/
structure Slot where
  axis : Fin 8
  owner : Owner
  kind : MoveKind
  units : Nat
  deriving DecidableEq, Repr

/-- The target or direction of a start (R28). -/
inductive Goal where
  | target (position : Nat)
  | dir (d : Dir)
  | none
  deriving DecidableEq, Repr

/-- An entry of the start queue (R28). -/
structure Entry where
  axis : Fin 8
  owner : Owner
  kind : MoveKind
  goal : Goal
  group : Option Nat
  deriving DecidableEq, Repr

/-- What the claim unit keeps (R26 to R28). -/
structure Claims where
  owners : Vector Owner 8
  held : Vector HeldSet 8
  slots : Vector (Option Slot) 3
  queue : List Entry
  deriving DecidableEq, Repr

/-- The outcomes of a claim (02 §2.4). -/
inductive ClaimAnswer where
  | admitted | held | refused | ignored
  deriving DecidableEq, Repr

/-! ### Supply governor (chapter 3) -/

/-- Supply state (R46, R55). -/
inductive SupplyState where
  | normal | low
  deriving DecidableEq, Repr

/-- The governor's pump request (R46). -/
inductive PumpRequest where
  | none | waiting | granted | paused
  deriving DecidableEq, Repr

/-- What the governor keeps beside the slots and the zone records (R45, R46, R58). -/
structure Governor where
  limit : Nat
  pumpRated : Nat
  zoneRated : Vector Nat 4
  pumpGrant : Nat
  supply : SupplyState
  regime : Bool
  deriving DecidableEq, Repr

/-! ### Plan executor (chapter 4) -/

/-- The target mode of an axis entry, with its value (R61). Profile slots count from 0 here. -/
inductive TargetMode where
  | absolute (position : Nat)
  | relative (distance : Int)
  | profile (slot : Fin 6)
  deriving DecidableEq, Repr

/-- An axis entry of a MOVE descriptor (R61). -/
structure AxisTarget where
  axis : Fin 8
  mode : TargetMode
  deriving DecidableEq, Repr

/-- A valid step descriptor (R61). `next = none` is END. -/
inductive Descriptor where
  | move (targets : List AxisTarget) (group wait : Bool) (next : Option (Fin 32))
  | pause (length : Nat) (next : Option (Fin 32))
  deriving DecidableEq, Repr

/-- The kind of a plan (R63). -/
inductive PlanKind where
  | chain (start : Fin 32)
  | recall (slot : Fin 6)
  deriving DecidableEq, Repr

/-- Where a plan or a profile action came from (R63, R101). -/
inductive Source where
  | link | switch
  deriving DecidableEq, Repr

/-- Broken-link policy (R63, R73). -/
inductive Policy where
  | stopError | endQuiet
  deriving DecidableEq, Repr

/-- Plan state (R63). -/
inductive PlanState where
  | waiting | running | ending
  deriving DecidableEq, Repr

/-- The current step of a plan (R63). -/
inductive StepRef where
  | descriptor (index : Fin 32)
  | phaseA | phaseB
  deriving DecidableEq, Repr

/-- The standing of an axis entry of the current step (R67 to R69). `toClaim` lasts only until its claim. -/
inductive Standing where
  | skipped | complete | toClaim | held | queued | started | settled
  deriving DecidableEq, Repr

/-- An axis entry of the current step (R66, R67). -/
structure StepEntry where
  axis : Fin 8
  target : Option Nat
  standing : Standing
  deriving DecidableEq, Repr

/-- The set of partial reasons (R63). -/
structure Partials where
  clamped : Bool
  unreferenced : Bool
  profileAbsent : Bool
  missed : Bool
  patternNotReady : Bool
  deriving DecidableEq, Repr

/-- The outcome of a plan (R63). -/
inductive PlanOutcome where
  | completed | partly
  | aborted (r : Reason)
  deriving DecidableEq, Repr

/-- A plan record (R63). -/
structure Plan where
  kind : PlanKind
  source : Source
  policy : Policy
  notify : Bool
  state : PlanState
  step : Option StepRef
  entries : List StepEntry
  pauseLeft : Option Nat
  inFlight : List (Fin 8)
  steps : Nat
  partials : Partials
  outcome : Option PlanOutcome
  /-- its END is reached and it waits for its moves in flight (R72) -/
  atEnd : Bool
  /-- the axes of phase B, from the division of R97 -/
  phaseB : List (Fin 8)
  /-- the discard of NEXT to be recorded with the result (R76, R78) -/
  nextDiscard : Option Reason
  deriving DecidableEq, Repr

/-- The two plan slots by name (R64, R114). -/
inductive PlanSlot where
  | current | next
  deriving DecidableEq, Repr

/-- The last result (R63). -/
structure LastPlan where
  kind : PlanKind
  source : Source
  outcome : PlanOutcome
  partials : Partials
  steps : Nat
  nextDiscard : Option Reason
  deriving DecidableEq, Repr

/-- Vehicle state (R79). -/
inductive Vehicle where
  | parked | moving
  deriving DecidableEq, Repr

/-- What the plan executor keeps (R61, R63, R79). -/
structure Plans where
  table : Vector (Option Descriptor) 32
  current : Option Plan
  next : Option Plan
  last : Option LastPlan
  vehicle : Vehicle
  deriving DecidableEq, Repr

/-! ### Profile store and retained records (chapters 5 and 11) -/

/-- A zone's mode in a heat preset (R82). Setpoints are in half-degree steps. -/
inductive HeatPreset where
  | off
  | manual (duty : Nat)
  | auto (setpoint : Nat)
  deriving DecidableEq, Repr

/-- The optional fields of a profile (R82). -/
structure ProfileContent where
  positions : Vector (Option Nat) 8
  /-- upper (cell 8) and lower (cell 9) -/
  lumbar : Option (Nat × Nat)
  heat : Option (Vector HeatPreset 4)
  /-- pattern slot and intensity -/
  massage : Option (Fin 8 × Nat)
  deriving DecidableEq, Repr

/-- The state of a profile slot (R82). -/
inductive ProfileState where
  | empty | valid | corrupt
  deriving DecidableEq, Repr

/-- A profile record: the RAM working copy (R82). -/
structure Profile where
  state : ProfileState
  content : ProfileContent
  persisted : Bool
  deriving DecidableEq, Repr

/-- The kinds of profile action (R101). -/
inductive ProfileActionKind where
  | store | write | erase | recall
  deriving DecidableEq, Repr

/-- The last profile action (R101). The last four fields are meaningful for a RECALL. -/
structure ProfileAction where
  kind : ProfileActionKind
  slot : Fin 6
  source : Source
  lumbar : Bool
  heat : Bool
  massage : Bool
  patternNotReady : Bool
  deriving DecidableEq, Repr

/-- One axis of the parking record (R186). -/
structure ParkedAxis where
  referenced : Bool
  position : Nat
  travel : Option Nat
  deriving DecidableEq, Repr

/-- The parking record (R186). -/
structure ParkingRecord where
  valid : Bool
  axes : Vector ParkedAxis 8
  deriving DecidableEq, Repr

/-- What a non-volatile record area holds, as its check judges it (R186). -/
inductive Area (α : Type) where
  | blank
  | good (content : α)
  | otherFormat
  | torn
  deriving DecidableEq, Repr

/-- A retained-record write in progress, with the content it carries (R187). -/
inductive WriteJob where
  | parking (r : ParkingRecord)
  | profile (slot : Fin 6) (c : ProfileContent)
  deriving DecidableEq, Repr

/-- What the retained-record store keeps (R186, R187). -/
structure RetainedStore where
  profileAreas : Vector (Area ProfileContent) 6
  parkingArea : Area ParkingRecord
  pendingParking : Bool
  pendingProfiles : Vector Bool 6
  job : Option WriteJob
  /-- the content the pending parking write will carry (R188, R190) -/
  parkingNext : ParkingRecord
  deriving DecidableEq, Repr

/-! ### Switch scanner (chapter 6) -/

/-- A contact record (R102). -/
structure ContactRec where
  pressed : Bool
  inert : Bool
  deriving DecidableEq, Repr

/-- The jog standing of an axis pair (R102). -/
inductive JogStanding where
  | none
  | admitted (d : Dir)
  | held (d : Dir)
  deriving DecidableEq, Repr

/-- An axis-pair record (R102). -/
structure PairRec where
  opposed : Bool
  jog : JogStanding
  deriving DecidableEq, Repr

/-- The causes of RECALL_REFUSED (R111). -/
inductive RecallRefusal where
  | vehicleMoving | slotsFull | profileEmpty
  deriving DecidableEq, Repr

/-- The last memory action (R114). Buttons count from 0. -/
inductive MemoryAction where
  | none
  | stored (m : Fin 3)
  | storeRefused (m : Fin 3)
  | recall (m : Fin 3) (slot : PlanSlot)
  | recallRefused (m : Fin 3) (cause : RecallRefusal)
  | abort (m : Fin 3)
  deriving DecidableEq, Repr

/-- What the switch scanner keeps (R102). Contact numbers: axis `a` has `2a` for + and `2a + 1` for −, SET is
16, M1 to M3 are 17 to 19. -/
structure Switches where
  contacts : Vector ContactRec 20
  pairs : Vector PairRec 8
  window : Option Nat
  lastAction : MemoryAction
  /-- waking presses, first detected first (R113) -/
  waking : List Contact
  deriving DecidableEq, Repr

/-! ### Cell controller and massage engine (chapter 7) -/

/-- The owner of a cell (R115). -/
inductive CellOwner where
  | none | massage | support | brace
  deriving DecidableEq, Repr

/-- Valve positions (R115). -/
inductive Valve where
  | hold | fill | vent
  deriving DecidableEq, Repr

/-- Cell latches (R115). -/
inductive CellLatch where
  | none | leak
  deriving DecidableEq, Repr

/-- A cell record (R115). -/
structure Cell where
  owner : CellOwner
  target : Nat
  pressure : Nat
  valve : Valve
  fillTime : Nat
  latch : CellLatch
  deriving DecidableEq, Repr

/-- Pump states (R120). -/
inductive PumpState where
  | idle | waiting | running | paused | resting | tripped
  deriving DecidableEq, Repr

/-- What the cell controller keeps (R115, R118, R120, R121). -/
structure CellUnit where
  cells : Vector Cell 12
  queue : List (Fin 12)
  pump : PumpState
  runTime : Nat
  /-- time since the pump was last RUNNING (R121) -/
  offTime : Nat
  deriving DecidableEq, Repr

/-- Pattern slot states (R127). -/
inductive PatternState where
  | empty | loading | ready
  deriving DecidableEq, Repr

/-- A pattern slot (R127). Bit n of a cell's mask is on for step n. -/
structure Pattern where
  state : PatternState
  period : Nat
  stepTime : Nat
  masks : Vector (BitVec 16) 8
  deriving DecidableEq, Repr

/-- The causes of the last stop of the massage engine (R129, R133). -/
inductive LastStop where
  | none | stop | expired | silence | brace | shutdown
  deriving DecidableEq, Repr

/-- What the massage engine keeps (R127, R129, R132). -/
structure Massage where
  patterns : Vector Pattern 8
  running : Bool
  active : Option (Fin 8)
  staged : Option (Fin 8)
  intensity : Option Nat
  counter : Nat
  stepLeft : Option Nat
  sessionLeft : Option Nat
  lastStop : LastStop
  /-- intensity pressures 1 to 5 -/
  pressures : Vector Nat 5
  /-- session length in minutes -/
  sessionLength : Nat
  deriving DecidableEq, Repr

/-! ### Heat controller (chapter 8) -/

/-- A zone's mode (R136). Setpoints are in half-degree steps. -/
inductive ZoneMode where
  | off
  | manual (duty : Nat)
  | auto (setpoint : Nat)
  | boost (setpoint : Nat)
  deriving DecidableEq, Repr

/-- Zone latches (R136). -/
inductive ZoneLatch where
  | none | overtemp | sensor
  deriving DecidableEq, Repr

/-- A zone record (R136). `temperature` is in half-degree steps, `none` is INVALID. -/
structure Zone where
  mode : ZoneMode
  maxDuty : Nat
  temperature : Option Int
  demand : Nat
  ceiling : Nat
  applied : Nat
  boostLeft : Option Nat
  latch : ZoneLatch
  /-- time passed in the PWM period under way; none before the first (R142) -/
  periodTime : Option Nat
  deriving DecidableEq, Repr

/-! ### Brace controller (chapter 9) -/

/-- Brace-ack modes (R151). -/
inductive AckMode where
  | pulse | level | done | off
  deriving DecidableEq, Repr

/-- Brace states (R152). -/
inductive BraceState where
  | idle | bracing | braced | holding | restoring
  deriving DecidableEq, Repr

/-- The source of a brace (R152). -/
inductive BraceSource where
  | command | line | both
  deriving DecidableEq, Repr

/-- Brace progress of a brace axis (R152). -/
inductive BraceProgress where
  | notMoved | leftOutFaulted | leftOutUnreferenced | waiting | moving
  | done (r : MoveResult)
  deriving DecidableEq, Repr

/-- Restore progress of a brace axis (R152). -/
inductive RestoreProgress where
  | none | deferred | waiting | moving | skipped
  | done (r : MoveResult)
  deriving DecidableEq, Repr

/-- A brace-axis entry (R152). -/
structure BraceAxis where
  axis : Fin 8
  goal : Goal
  progress : BraceProgress
  restore : RestoreProgress
  deriving DecidableEq, Repr

/-- Bolster progress (R152, R167). -/
inductive BolsterProgress where
  | none | filling | held | failed
  deriving DecidableEq, Repr

/-- The snapshot (R153). -/
structure Snapshot where
  positions : Vector (Option Nat) 8
  /-- targets of cells 8, 9, 10, 11 -/
  cellTargets : Vector Nat 4
  /-- pattern slot and intensity, where massage was RUNNING -/
  massage : Option (Fin 8 × Nat)
  deriving DecidableEq, Repr

/-- How the last brace ended (R152). -/
inductive BraceEnd where
  | restored (massageResumed : Bool)
  | switch | afterCrash
  deriving DecidableEq, Repr

/-- What the brace controller keeps (R150 to R153, R168). -/
structure Brace where
  state : BraceState
  source : Option BraceSource
  late : Bool
  releasePending : Bool
  holdPending : Bool
  deadlineLeft : Option Nat
  holdLeft : Option Nat
  axes : List BraceAxis
  bolster10 : BolsterProgress
  bolster11 : BolsterProgress
  bolsterFail : Bool
  lineActive : Bool
  lastEnd : Option BraceEnd
  snapshot : Option Snapshot
  ackPulse : Option Nat
  deadline : Nat
  holdTime : Nat
  bolsterPressure : Nat
  ackMode : AckMode
  deriving DecidableEq, Repr

/-! ### Power control (chapter 11) -/

/-- Power states (11). -/
inductive PowerState where
  | starting | awake | shuttingDown | sleep
  deriving DecidableEq, Repr

/-- The causes of a reset (R189). -/
inductive ResetCause where
  | powerOn | resetPin | restart
  deriving DecidableEq, Repr

/-- The wake sources (R191). -/
inductive WakeSource where
  | switch | braceLine | link
  deriving DecidableEq, Repr

/-- The cause of the last entry to AWAKE (R192). -/
inductive AwakeCause where
  | reset (c : ResetCause)
  | woken (w : WakeSource)
  deriving DecidableEq, Repr

/-- The parking standing (R188). -/
inductive ParkingStanding where
  | valid | invalidating | invalid
  deriving DecidableEq, Repr

/-- How far a shutdown has come (R190). -/
inductive ShutdownPhase where
  | waiting | writing | written
  deriving DecidableEq, Repr

/-- What power control keeps (R188 to R192). -/
structure Power where
  state : PowerState
  /-- held in reset by the RESET pin (R189) -/
  held : Bool
  resetCause : ResetCause
  awakeCause : AwakeCause
  parkingWasValid : Bool
  corruptSlots : Nat
  standing : ParkingStanding
  phase : ShutdownPhase
  wakeSource : Option WakeSource
  /-- an activation of the brace line taken in SLEEP, held until AWAKE (R150) -/
  activationHeld : Bool
  deriving DecidableEq, Repr

/-! ### What notices and status replies carry -/

/-- An axis in the AXIS notice (R25). -/
structure AxisView where
  activity : Activity
  position : Nat
  referenced : Bool
  travel : Option Nat
  limits : Option (Nat × Nat)
  latch : AxisLatch
  stallCount : Nat
  lastResult : Option MoveResult
  owner : Owner
  deriving DecidableEq, Repr

/-- A start-queue entry in STATUS AXES (R44). -/
structure EntryView where
  axis : Fin 8
  owner : Owner
  kind : MoveKind
  goal : Goal
  grouped : Bool
  deriving DecidableEq, Repr

/-- A plan slot in the PLAN notice (R81). -/
structure PlanView where
  kind : PlanKind
  source : Source
  state : PlanState
  step : Option StepRef
  steps : Nat
  partials : Partials
  outcome : Option PlanOutcome
  deriving DecidableEq, Repr

/-- The PLAN notice (R81). -/
structure PlansView where
  vehicle : Vehicle
  current : Option PlanView
  next : Option PlanView
  last : Option LastPlan
  deriving DecidableEq, Repr

/-- The BRACE notice (R170). -/
structure BraceView where
  state : BraceState
  source : Option BraceSource
  late : Bool
  releasePending : Bool
  holdPending : Bool
  axes : List BraceAxis
  bolster10 : BolsterProgress
  bolster11 : BolsterProgress
  bolsterFail : Bool
  lineActive : Bool
  ackActive : Bool
  lastEnd : Option BraceEnd
  deriving DecidableEq, Repr

/-- The fault set with its two condition flags (R181). -/
structure FaultSet where
  axes : Vector AxisLatch 8
  cells : Vector CellLatch 12
  pump : Bool
  zones : Vector ZoneLatch 4
  supplyLow : Bool
  hostSilent : Bool
  deriving DecidableEq, Repr

/-- The SUPPLY notice (R60). -/
structure SupplyView where
  supply : SupplyState
  limit : Nat
  grantedSum : Nat
  motorUnits : Nat
  pumpGrant : Nat
  ceilings : Vector Nat 4
  heaterUnits : Vector Nat 4
  pumpPaused : Bool
  regime : Bool
  deriving DecidableEq, Repr

/-- A profile slot in the PROFILE notice (R101). -/
structure ProfileView where
  state : ProfileState
  /-- the presence set: axes 0 to 7, lumbar, heat, massage, and the spare position (R82) -/
  presence : List Bool
  persisted : Bool
  pendingOrWriting : Bool
  deriving DecidableEq, Repr

/-- A cell in the MASSAGE notice (R135). -/
structure CellView where
  owner : CellOwner
  target : Nat
  pressure : Nat
  valve : Valve
  latch : CellLatch
  deriving DecidableEq, Repr

/-- The engine fields of the MASSAGE notice; the session time left is in seconds (R135, log 34). -/
structure EngineView where
  running : Bool
  active : Option (Fin 8)
  staged : Option (Fin 8)
  intensity : Option Nat
  counter : Nat
  sessionLeft : Option Nat
  lastStop : LastStop
  deriving DecidableEq, Repr

/-- A zone in the HEAT notice (R149). -/
structure ZoneView where
  mode : ZoneMode
  applied : Nat
  ceiling : Nat
  temperature : Option Int
  latch : ZoneLatch
  deriving DecidableEq, Repr

/-- A zone in STATUS HEAT (R149). -/
structure ZoneStatus where
  view : ZoneView
  maxDuty : Nat
  demand : Nat
  boostLeft : Option Nat
  heaterUnits : Nat
  outputOn : Bool
  periodTime : Option Nat
  deriving DecidableEq, Repr

/-- What a notice or a reply carries, where the spec gives the contents and not their bytes: the ten
notices, the eight STATUS replies, IDENTIFY's data and the plan slot taken. -/
inductive Content where
  | ready (power : PowerState) (cause : AwakeCause) (parkingWasValid : Bool) (standing : ParkingStanding) (corruptSlots : Nat)
  | brace (v : BraceView)
  | fault (v : FaultSet)
  | supply (v : SupplyView)
  | plan (v : PlansView)
  | axis (v : Vector AxisView 8)
  | profile (slots : Vector ProfileView 6) (last : Option ProfileAction)
  | massage (engine : EngineView) (patterns : Vector PatternState 8) (cells : Vector CellView 12) (queue : List (Fin 12))
      (pump : PumpState) (pumpLatched : Bool)
  | heat (v : Vector ZoneView 4)
  /-- `windowLeft` is in units of 100 ms, `none` for CLOSED (R114) -/
  | switch (contacts : Vector ContactRec 20) (pairs : Vector PairRec 8) (windowLeft : Option Nat) (last : MemoryAction)
  | statusAxes (v : Vector AxisView 8) (slots : Vector (Option Slot) 3) (queue : List EntryView)
  | statusPlans (v : PlansView) (entries : List StepEntry) (pauseLeft : Option Nat) (valid : Vector Bool 32)
  | statusCells (cells : Vector Cell 12) (queue : List (Fin 12)) (pump : PumpState) (runTime : Nat) (restLeft : Option Nat)
      (pumpLatched : Bool) (pumpCurrent : Nat)
  | statusPatterns (patterns : Vector Pattern 8) (engine : EngineView)
  | statusHeat (v : Vector ZoneStatus 4)
  | statusBrace (v : BraceView) (deadlineLeft holdLeft : Option Nat) (snapshot : Option Snapshot) (targets : Vector BraceTarget 8)
      (deadline holdTime bolsterPressure : Nat) (ackMode : AckMode)
  | statusSupply (axisGrants : Vector (Option Nat) 8) (request : PumpRequest) (pumpGrant : Nat) (heaterUnits ceilings : Vector Nat 4)
      (supply : SupplyState) (limit grantedSum freeUnits : Nat) (regime : Bool) (reading : Nat)
  | statusFaults (v : FaultSet) (power : PowerState) (silenceLeft : Option Nat)
  | identity (name : List Byte) (issue format : Nat)
  | planSlot (slot : PlanSlot)
  deriving DecidableEq, Repr

/-! ### Seat link (chapter 10) -/

/-- Reply statuses (R175). -/
inductive ReplyStatus where
  | done | accepted | busy | refused | badParameter | unknown | frameError | overrun
  deriving DecidableEq, Repr

/-- The data after a reply's status. -/
inductive ReplyData where
  | none
  | bytes (b : List Byte)
  | content (c : Content)
  deriving DecidableEq, Repr

/-- The ten notice kinds (R176). -/
inductive NoticeKind where
  | ready | brace | fault | supply | plan | axis | profile | massage | heat | switch
  deriving DecidableEq, Repr

/-- A command frame's code, tag and payload. -/
structure Command where
  code : Byte
  tag : Byte
  payload : List Byte
  deriving DecidableEq, Repr

/-- The command slot (R173). -/
inductive CommandSlot where
  | empty
  | inHand (c : Command)
  | replied (c : Command) (status : ReplyStatus) (data : ReplyData)
  deriving DecidableEq, Repr

/-- An entry of the replies owed (R175). `command` is the reply of the command in the slot. -/
inductive Owed where
  | command
  | overrun (code tag : Byte) (count : Nat)
  | frameError (count : Nat)
  deriving DecidableEq, Repr

/-- The frame, or the run of frames, being sent (R177, R178). `ofSlot` says that its end empties the command
slot (R173, R179). -/
inductive Outgoing where
  | reply (code tag : Byte) (status : ReplyStatus) (data : ReplyData) (ofSlot : Bool)
  | notice (kind : NoticeKind) (content : Content)
  deriving DecidableEq, Repr

/-- The receiver (R171): `inFrame` holds the bytes since the marker, the length first. -/
inductive Receiver where
  | hunting
  | inFrame (bytes : List Byte)
  deriving DecidableEq, Repr

/-- What the seat link keeps (R171 to R180, R189, R191). -/
structure Link where
  receiver : Receiver
  /-- time since the end of the last byte of a frame (R171) -/
  gap : Nat
  /-- a break is being received: the line has not yet returned high (R179) -/
  lineLow : Bool
  /-- everything received is discarded, after a wake by link activity (R191) -/
  discarding : Bool
  slot : CommandSlot
  owed : List Owed
  sending : Option Outgoing
  /-- pending-notice set, in the order of R177 -/
  pendingNotices : Vector Bool 10
  /-- silence time in seconds -/
  silenceTime : Nat
  silenceLeft : Option Nat
  hostSilent : Bool
  /-- a RESTART has been answered DONE and its reset is due (R189) -/
  restartDue : Bool
  deriving DecidableEq, Repr

/-! ### Requests between blocks -/

/-- The requests one block makes of another inside a step (log 4). -/
inductive Work where
  /-- the start arbiter runs (R36) -/
  | arbiter
  /-- an owner is told that its entry has been started (R69, R155, R164) -/
  | started (o : Owner) (a : Fin 8)
  /-- the axis drives hand over the end of a move (R38, R39) -/
  | moveOver (a : Fin 8) (r : MoveResult) (d : Option Dir)
  /-- a start has completed without driving (R5, R37) -/
  | completed (a : Fin 8) (d : Option Dir)
  /-- the claim unit passes a result to the move owner (R38) -/
  | result (o : Owner) (a : Fin 8) (r : MoveResult) (d : Option Dir)
  /-- the claim unit settles the owner of an axis (R38, R39) -/
  | settleOwner (a : Fin 8) (moveOwner : Owner)
  /-- HELD claimants are told that the axis is free (R30) -/
  | tellFree (a : Fin 8)
  | braceFree (a : Fin 8)
  | switchFree (a : Fin 8)
  | planFree (a : Fin 8)
  /-- a withdrawn entry is reported to its owner (R41) -/
  | withdrawn (e : Entry) (r : MoveResult)
  /-- owner stops of one owner (R40), in one act -/
  | ownerStop (o : Owner) (as : List (Fin 8))
  /-- a release (R41) -/
  | release (o : Owner) (c : StopCause)
  /-- an abort of the CURRENT plan (R76, R77) -/
  | planAbort (r : Reason)
  /-- the plan in CURRENT begins its first step (R66) -/
  | planBegin
  /-- the claim of one entry of the current step (R68) -/
  | planClaim (a : Fin 8)
  /-- the claim of a grouped step (R68) -/
  | planClaimGroup
  /-- the plan executor judges its step and its end (R65, R69, R72) -/
  | planCheck
  /-- a brace request (R150) -/
  | braceRequest (src : BraceSource)
  /-- steps 4 to 7 of R154, and R159's new decision -/
  | braceDecide
  | braceClaim (a : Fin 8)
  | restoreClaim (a : Fin 8)
  | braceRest
  /-- the flags that decide what follows BRACED (R157) -/
  | bracedNext
  /-- completeness of the brace or of the restore (R157, R164, R165) -/
  | braceCheck
  /-- a press is taken (R103 to R111) -/
  | pressTaken (c : Contact)
  | pressAct (c : Contact) (foundRunning : Bool)
  | switchClaim (a : Fin 8) (d : Dir)
  /-- the release of a contact acts (R106) -/
  | releaseAct (c : Contact)
  /-- the rest of the entry to SHUTTING_DOWN (R190) -/
  | shutdownRest
  deriving DecidableEq, Repr

/-! ### The whole state -/

/-- The state of the part, with the queue of commands waiting. -/
structure State where
  axes : Vector Axis 8
  claims : Claims
  gov : Governor
  plans : Plans
  profiles : Vector Profile 6
  lastProfile : Option ProfileAction
  store : RetainedStore
  switches : Switches
  cells : CellUnit
  massage : Massage
  zones : Vector Zone 4
  brace : Brace
  link : Link
  power : Power
  /-- pump current and seat supply voltage as last sensed -/
  sense : Sense
  /-- the model's own: requests between blocks not yet carried out (log 4) -/
  agenda : List Work
  /-- the model's own: commands waiting, first in first out -/
  pending : List Instr
  deriving DecidableEq, Repr

/-- The block has no fault of its own: the spec lets every event end in a next state, and what it calls
faults are latches held in State (00 §4.6). Safe: nothing raises one. -/
inductive Fault where
  deriving DecidableEq, Repr

/-- Refusals. -/
inductive Refusal where
  /-- raised by exec for a command that has no meaning yet; safe: the model stops -/
  | notModelled (mnemonic : String)
  deriving DecidableEq, Repr

/-! ### The machine right after reset -/

/-- An axis after reset, with its rated units and brace target (R1, R23). -/
def Axis.atReset (ratedUnits : Nat) (braceTarget : BraceTarget) : Axis where
  referenced := false
  activity := .idle
  position := 0
  travel := none
  direction := .plus
  move := none
  stallCount := 0
  stallDir := .plus
  latch := .none
  lastResult := none
  bridge := .off
  settleLeft := none
  driveTime := 0
  edgeTime := 0
  cfg := { ratedUnits := ratedUnits, stallWindow := 80, coastLead := 6, tolerance := 8, margin := 16, braceTarget := braceTarget }

/-- No partial reasons. -/
def Partials.empty : Partials := ⟨false, false, false, false, false⟩

/-- A profile with every field absent (R82). -/
def ProfileContent.empty : ProfileContent := ⟨Vector.replicate 8 none, none, none, none⟩

/-- A parking record with valid = no and every axis field cleared (R188). -/
def ParkingRecord.cleared : ParkingRecord := ⟨false, Vector.replicate 8 ⟨false, 0, none⟩⟩

/-- The built-in pattern WAVE (R127). -/
def Pattern.wave : Pattern := ⟨.ready, 6, 5, #v[0x01, 0x01, 0x22, 0x22, 0x14, 0x14, 0x08, 0x08]⟩

/-- The built-in pattern ROLL (R127). -/
def Pattern.roll : Pattern := ⟨.ready, 3, 10, #v[0x01, 0x01, 0x03, 0x03, 0x06, 0x06, 0x04, 0x04]⟩

/-- The built-in pattern PULSE (R127). -/
def Pattern.pulse : Pattern := ⟨.ready, 2, 10, Vector.replicate 8 0x01⟩

/-- An EMPTY pattern slot; its other fields have no meaning (R127). -/
def Pattern.emptySlot : Pattern := ⟨.empty, 1, 1, Vector.replicate 8 0⟩

/-- The state right after reset, at the beginning of STARTING (00 §4.4, R189). What no rule gives is named in
logs 8 and 9. -/
def State.reset : State where
  axes := #v[.atReset 16 .none, .atReset 20 .none, .atReset 12 .upper, .atReset 16 .lower,
             .atReset 8 .none, .atReset 10 .none, .atReset 6 .none, .atReset 6 .upper]
  claims := { owners := Vector.replicate 8 .none, held := Vector.replicate 8 ⟨false, false, false⟩,
              slots := Vector.replicate 3 none, queue := [] }
  gov := { limit := 40, pumpRated := 8, zoneRated := #v[10, 6, 10, 6], pumpGrant := 0, supply := .normal, regime := false }
  plans := { table := Vector.replicate 32 none, current := none, next := none, last := none, vehicle := .parked }
  profiles := Vector.replicate 6 ⟨.empty, .empty, false⟩
  lastProfile := none
  store := { profileAreas := Vector.replicate 6 .blank, parkingArea := .blank, pendingParking := false,
             pendingProfiles := Vector.replicate 6 false, job := none, parkingNext := .cleared }
  switches := { contacts := Vector.replicate 20 ⟨false, false⟩, pairs := Vector.replicate 8 ⟨false, .none⟩,
                window := none, lastAction := .none, waking := [] }
  cells := { cells := Vector.replicate 12 ⟨.none, 0, 0, .vent, 0, .none⟩, queue := [], pump := .idle, runTime := 0, offTime := 0 }
  massage := { patterns := #v[.wave, .roll, .pulse, .emptySlot, .emptySlot, .emptySlot, .emptySlot, .emptySlot],
               running := false, active := none, staged := none, intensity := none, counter := 0, stepLeft := none,
               sessionLeft := none, lastStop := .none, pressures := #v[20, 28, 36, 44, 52], sessionLength := 15 }
  zones := Vector.replicate 4
    { mode := .off, maxDuty := 80, temperature := some 0, demand := 0, ceiling := 0, applied := 0, boostLeft := none,
      latch := .none, periodTime := none }
  brace := { state := .idle, source := none, late := false, releasePending := false, holdPending := false, deadlineLeft := none,
             holdLeft := none, axes := [], bolster10 := .none, bolster11 := .none, bolsterFail := false, lineActive := false,
             lastEnd := none, snapshot := none, ackPulse := none, deadline := 600, holdTime := 5, bolsterPressure := 90,
             ackMode := .level }
  link := { receiver := .hunting, gap := 0, lineLow := false, discarding := false, slot := .empty, owed := [], sending := none,
            pendingNotices := Vector.replicate 10 false, silenceTime := 10, silenceLeft := none, hostSilent := false,
            restartDue := false }
  power := { state := .starting, held := false, resetCause := .powerOn, awakeCause := .reset .powerOn, parkingWasValid := false,
             corruptSlots := 0, standing := .invalid, phase := .waiting, wakeSource := none, activationHeld := false }
  sense := ⟨0, 0⟩
  agenda := []
  pending := []

end Sys2Proof.Machine
end

