-- ==== Sys2Proof/Machine/Ops.lean ====
section
/-! DEFINITION. The named operations over the state: reading and writing one record, posting a notice, asking
another block, and the values the spec derives from other fields. -/

namespace Sys2Proof.Machine

/-! ### Notices and requests -/

/-- The place of a kind in the transmit order (R176, R177). -/
def NoticeKind.index : NoticeKind → Fin 10
  | .ready => 0 | .brace => 1 | .fault => 2 | .supply => 3 | .plan => 4
  | .axis => 5 | .profile => 6 | .massage => 7 | .heat => 8 | .switch => 9

/-- A block posts a kind: it is marked pending (R176). -/
def State.post (k : NoticeKind) (s : State) : State :=
  { s with link.pendingNotices := s.link.pendingNotices.set k.index true }

/-- A block posts a kind where something has changed. -/
def State.postIf (changed : Bool) (k : NoticeKind) (s : State) : State :=
  if changed then s.post k else s

/-- A block makes requests of others, to be carried out next and in this order (log 4). -/
def State.call (ws : List Work) (s : State) : State :=
  { s with agenda := ws ++ s.agenda }

/-! ### Records -/

/-- An axis record. -/
def State.axis (s : State) (a : Fin 8) : Axis := s.axes[a]

/-- An axis record is replaced. -/
def State.setAxis (a : Fin 8) (x : Axis) (s : State) : State :=
  { s with axes := s.axes.set a x }

/-- A cell record. -/
def State.cell (s : State) (c : Fin 12) : Cell := s.cells.cells[c]

/-- A cell record is replaced. -/
def State.setCell (c : Fin 12) (x : Cell) (s : State) : State :=
  { s with cells.cells := s.cells.cells.set c x }

/-- A zone record. -/
def State.zone (s : State) (z : Fin 4) : Zone := s.zones[z]

/-- A zone record is replaced. -/
def State.setZone (z : Fin 4) (x : Zone) (s : State) : State :=
  { s with zones := s.zones.set z x }

/-- A profile record. -/
def State.profile (s : State) (p : Fin 6) : Profile := s.profiles[p]

/-- The owner of an axis in the claim table (R26). -/
def State.owner (s : State) (a : Fin 8) : Owner := s.claims.owners[a]

/-- The owner of an axis is set; a change posts the AXIS notice (R26, R44). -/
def State.setOwner (a : Fin 8) (o : Owner) (s : State) : State :=
  State.postIf (s.owner a != o) .axis { s with claims.owners := s.claims.owners.set a o }

/-! ### Axis records -/

/-- The soft limits: margin, and travel less margin; absent where the travel is (R2). -/
def Axis.limits (x : Axis) : Option (Nat × Nat) :=
  x.travel.map fun t => (x.cfg.margin, t - x.cfg.margin)

/-- Whether an axis is RUNNING or STOPPING. -/
def Axis.moving (x : Axis) : Bool :=
  x.activity == .running || x.activity == .stopping

/-- A position set to the nearer soft limit where it lies outside them; unchanged where they are absent. -/
def Axis.intoLimits (x : Axis) (p : Nat) : Nat :=
  match x.limits with
  | some (lo, hi) => clamp lo hi p
  | none => p

/-- Whether any axis is RUNNING or STOPPING (R85). -/
def State.anyMoving (s : State) : Bool := s.axes.toList.any Axis.moving

/-! ### Drive slots and the supply budget -/

/-- The drive slot an axis holds (R27). -/
def State.slotOf (s : State) (a : Fin 8) : Option Slot :=
  (s.claims.slots.toList.filterMap id).find? (·.axis == a)

/-- Whether an axis is RUNNING or STOPPING for a move of this owner (R27). -/
def State.movingFor (s : State) (a : Fin 8) (o : Owner) : Bool :=
  (s.axis a).moving && (s.slotOf a).any (·.owner == o)

/-- How many slots are free. -/
def State.freeSlots (s : State) : Nat := (s.claims.slots.toList.filter Option.isNone).length

/-- The slot an axis holds becomes free (R38). -/
def State.freeSlotOf (a : Fin 8) (s : State) : State :=
  { s with claims.slots := s.claims.slots.map fun x => if x.any (·.axis == a) then none else x }

/-- The lowest-numbered free slot is taken (R27). -/
def State.takeSlot (x : Slot) (s : State) : State :=
  match s.claims.slots[0], s.claims.slots[1], s.claims.slots[2] with
  | none, _, _ => { s with claims.slots := s.claims.slots.set 0 (some x) }
  | _, none, _ => { s with claims.slots := s.claims.slots.set 1 (some x) }
  | _, _, none => { s with claims.slots := s.claims.slots.set 2 (some x) }
  | _, _, _ => s

/-- The axis grant: the units charged at the start, held beside the slot (R46, R47). -/
def State.axisGrant (s : State) (a : Fin 8) : Option Nat := (s.slotOf a).map (·.units)

/-- The motor units: the sum of the axis grants (R46). -/
def State.motorUnits (s : State) : Nat :=
  (s.claims.slots.toList.map fun x => (x.map (·.units)).getD 0).sum

/-- The units of a duty: rated units times duty divided by 100, rounded up (R46, R48). -/
def unitsOf (rated duty : Nat) : Nat := ceilDiv (rated * duty) 100

/-- A zone's heater units (R46). -/
def State.heaterUnits (s : State) (z : Fin 4) : Nat := unitsOf s.gov.zoneRated[z] (s.zone z).applied

/-- The sum of the four heater units. -/
def State.heaterSum (s : State) : Nat :=
  s.heaterUnits 0 + s.heaterUnits 1 + s.heaterUnits 2 + s.heaterUnits 3

/-- The granted sum (R46). -/
def State.grantedSum (s : State) : Nat := s.motorUnits + s.gov.pumpGrant + s.heaterSum

/-- The free units (R46). -/
def State.freeUnits (s : State) : Nat := s.gov.limit - s.grantedSum

/-- The governor's pump request, which follows the pump state (R46, R120). -/
def State.pumpRequest (s : State) : PumpRequest :=
  match s.cells.pump with
  | .waiting => .waiting
  | .running => .granted
  | .paused => .paused
  | .idle | .resting | .tripped => .none

/-- Whether the pump's OVERCURRENT latch is set: exactly in TRIPPED (R120, R122). -/
def State.pumpLatched (s : State) : Bool := s.cells.pump == .tripped

/-- Whether the fill queue holds a cell owned by BRACE (R50, R52, R53). -/
def State.braceCellQueued (s : State) : Bool :=
  s.cells.queue.any fun c => (s.cell c).owner == .brace

/-- The brace sum of a table of axes: the rated units of every axis with a brace target (R58). -/
def braceSum (axes : Vector Axis 8) : Nat :=
  (axes.toList.map fun x => if x.cfg.braceTarget == .none then 0 else x.cfg.ratedUnits).sum

/-- How many axes have a brace target (R23). -/
def braceAxisCount (axes : Vector Axis 8) : Nat :=
  (axes.toList.filter fun x => x.cfg.braceTarget != .none).length

/-! ### Power -/

/-- Whether the part runs: not held in reset and not in SLEEP. -/
def State.live (s : State) : Bool := !s.power.held && s.power.state != .sleep

/-- Whether the part is up: AWAKE or SHUTTING_DOWN, and not held in reset. -/
def State.up (s : State) : Bool :=
  !s.power.held && (s.power.state == .awake || s.power.state == .shuttingDown)

/-! ### Outputs -/

/-- Whether a zone's output is on: for the applied-duty share of its period (R142). -/
def Zone.outputOn (z : Zone) : Bool :=
  match z.periodTime with
  | some t => t < z.applied * (Config.periodMs / 100)
  | none => false

/-- The level the brace-ack mode asks for by the brace state (R168); PULSE follows its own time. -/
def Brace.ackLevel (b : Brace) : Bool :=
  match b.ackMode with
  | .level => b.state == .bracing || b.state == .braced || b.state == .holding
  | .done => b.state == .braced || b.state == .holding
  | .pulse | .off => false

/-- The level of the brace-ack line (R168): a PULSE once begun runs its time, whatever the mode is set to for the next brace (R151). -/
def State.ackLine (s : State) : Bool :=
  if s.power.held || s.power.state == .starting || s.power.state == .sleep then false
  else s.brace.ackPulse.isSome || s.brace.ackLevel

end Sys2Proof.Machine
end

