-- ==== Sys2Proof/Machine/Axes.lean ====
section
/-! DEFINITION. The axis drives (chapter 1): starts, edges, stops, stalls, trips, settles, referencing and clearing. -/

namespace Sys2Proof.Machine

/-- The direction of a targeted drive: + when the target lies above the position (R4). -/
def towards (position target : Nat) : Dir := if position < target then .plus else .minus

/-- A drive begins: direction set anew, bridge driven, start grace begun (R5, R6). -/
def Axis.beginDrive (d : Dir) (x : Axis) : Axis :=
  { x with
    activity := .running, bridge := .driven, direction := d, settleLeft := none, driveTime := 0, edgeTime := 0
    move := x.move.map fun m => { m with ended := none } }

/-- A drive ends: bridge braked, STOPPING, settle timer started (R7, R11, R13, R21). -/
def Axis.brake (e : DriveEnd) (x : Axis) : Axis :=
  { x with
    activity := .stopping, bridge := .braked, settleLeft := some Config.settleMs
    move := x.move.map fun m => { m with ended := some e } }

/-! ### Starts -/

/-- The target of a start: the one named, or for a jog on a referenced axis the soft limit in its direction
(R5, R10). -/
def Axis.startTarget (x : Axis) (kind : MoveKind) (goal : Goal) : Option Nat :=
  match kind, goal with
  | .targeted, .target t => some t
  | .jog, .dir d =>
    if x.referenced then x.limits.map fun l => match d with | .plus => l.2 | .minus => l.1 else none
  | _, _ => none

/-- Whether a start completes at once: the position lies within tolerance of the target, or a jog on a referenced
axis starts at or beyond the soft limit in its direction (R5, R10). -/
def Axis.completesAtStart (x : Axis) (kind : MoveKind) (goal : Goal) : Bool :=
  match x.startTarget kind goal with
  | none => false
  | some t =>
    decide (distance x.position t ≤ x.cfg.tolerance) ||
      match kind, goal with
      | .jog, .dir .plus => decide (t ≤ x.position)
      | .jog, .dir .minus => decide (x.position ≤ t)
      | _, _ => false

/-- The direction named by a jog. -/
def Goal.jogDir : Goal → Option Dir
  | .dir d => some d
  | .target _ | .none => Option.none

/-- The move record of a start, with the settings taken at it (R1, R5). -/
def Axis.newMove (x : Axis) (kind : MoveKind) (goal : Goal) : Move where
  kind := kind
  target := x.startTarget kind goal
  leg := if kind = .reference then some .leg1 else none
  corrective := false
  stopCause := none
  ended := none
  jogDir := goal.jogDir
  ratedUnits := x.cfg.ratedUnits
  stallWindow := x.cfg.stallWindow
  coastLead := x.cfg.coastLead
  tolerance := x.cfg.tolerance

/-- The direction of the first drive of a start (R4). -/
def Axis.startDir (x : Axis) (kind : MoveKind) (goal : Goal) : Dir :=
  match x.startTarget kind goal, goal with
  | some t, _ => towards x.position t
  | none, .dir d => d
  | none, _ => .minus

/-- A start that drives: the move record is made and the bridge driven. A referencing first makes the axis
unreferenced, with travel and soft limits absent (R5, R18). -/
def Axis.start (kind : MoveKind) (goal : Goal) (x : Axis) : Axis :=
  let x' := if kind = .reference then { x with referenced := false, travel := none } else x
  Axis.beginDrive (x.startDir kind goal) { x' with move := some (x.newMove kind goal) }

/-- A start that completes at once: the stall count becomes 0 and REACHED is the last result (R5, R12). -/
def Axis.completeAtStart (x : Axis) : Axis :=
  { x with stallCount := 0, lastResult := some .reached }

/-- An axis is given its start (R5). -/
def State.startAxis (a : Fin 8) (kind : MoveKind) (goal : Goal) (s : State) : State :=
  let x := s.axis a
  (s.setAxis a (if x.completesAtStart kind goal then x.completeAtStart else x.start kind goal)).post .axis

/-! ### Hall edges -/

/-- The position after one edge: one count in the drive direction, staying within 0 to 8191 (R3). -/
def stepPosition (d : Dir) (p : Nat) : Nat :=
  match d with
  | .plus => min (p + 1) Config.maxPosition
  | .minus => p - 1

/-- Whether a targeted drive ends by its coast lead at this position (R7). -/
def Axis.leadReached (x : Axis) : Bool :=
  match x.move with
  | some m => match m.target with
    | some t => decide (distance x.position t ≤ m.coastLead)
    | none => false
  | none => false

/-- A Hall edge at an axis record (R3, R7). -/
def Axis.edge (x : Axis) : Axis :=
  let moved := { x with position := stepPosition x.direction x.position }
  match x.activity with
  | .running => if moved.leadReached then moved.brake .coastLead else { moved with edgeTime := 0 }
  | .stopping => { moved with settleLeft := some Config.settleMs }
  | .idle | .faulted => moved

/-- A Hall edge (R3, R7); the end of a drive posts the AXIS notice (R25). -/
def State.hallEdge (a : Fin 8) (s : State) : State :=
  State.postIf ((s.axis a).edge.activity != (s.axis a).activity) .axis (s.setAxis a (s.axis a).edge)

/-! ### Stop requests -/

/-- A stop request at an axis record (R11). -/
def Axis.stop (c : StopCause) (x : Axis) : Axis :=
  match x.activity with
  | .running => Axis.brake .stopped { x with move := x.move.map fun m => { m with stopCause := some c } }
  | .stopping =>
    if x.latch = .none then
      { x with move := x.move.map fun m => if m.stopCause.isNone then { m with stopCause := some c } else m }
    else x
  | .idle | .faulted => x

/-- A stop request (R11, R44). -/
def State.stopRequest (a : Fin 8) (c : StopCause) (s : State) : State :=
  (s.setAxis a ((s.axis a).stop c)).post .axis

/-! ### Stalls, trips and leg limits -/

/-- Whether the move in hand is in a referencing leg (R19). -/
def Axis.inLeg (x : Axis) : Bool :=
  match x.move with
  | some m => m.leg == some .leg1 || m.leg == some .leg2
  | none => false

/-- The stall count after a counted stall (R14 case 2). -/
def Axis.countStall (x : Axis) : Axis :=
  let n := if x.stallCount ≠ 0 ∧ x.stallDir = x.direction then x.stallCount + 1 else 1
  { x with
    stallCount := n, stallDir := x.direction
    latch := if n = Config.stallLimit then .stall else x.latch }

/-- A stall of a RUNNING axis with this owner (R13, R14, R19). -/
def Axis.stalled (o : Owner) (x : Axis) : Axis :=
  if x.inLeg then x.brake .stall
  else if !x.referenced && (o == .switch || o == .brace) then x.brake .endStop
  else x.countStall.brake .stall

/-- A stall (R13): judged in RUNNING only. -/
def State.stall (a : Fin 8) (s : State) : State :=
  if (s.axis a).activity = .running then
    let x := (s.axis a).stalled (s.owner a)
    State.postIf (x.latch != (s.axis a).latch) .fault ((s.setAxis a x).post .axis)
  else s

/-- An over-current trip at an axis record (R15). -/
def Axis.trip (x : Axis) : Axis :=
  { x with
    bridge := .off, latch := .overcurrent, activity := .stopping
    settleLeft := if x.activity = .running then some Config.settleMs else x.settleLeft
    move := x.move.map fun m => { m with ended := some .tripped } }

/-- An over-current trip (R15): judged while the bridge is driven in RUNNING or braked in STOPPING. -/
def State.trip (a : Fin 8) (s : State) : State :=
  if (s.axis a).moving && (s.axis a).bridge != .off then
    ((s.setAxis a (s.axis a).trip).post .axis).post .fault
  else s

/-- A leg limit expires (R19, R21). -/
def State.legLimit (a : Fin 8) (s : State) : State :=
  if (s.axis a).activity = .running && (s.axis a).inLeg then
    ((s.setAxis a { (s.axis a).brake .legLimit with latch := .referenceFailed }).post .axis).post .fault
  else s

/-! ### Settles -/

/-- A move ends at a settle: the result is written and handed to the claim unit (R8, R12). -/
def State.endMove (a : Fin 8) (act : Activity) (r : MoveResult) (s : State) : State :=
  let x := s.axis a
  State.call [.moveOver a r (x.move.bind Move.jogDir)]
    ((s.setAxis a { x with activity := act, bridge := .off, settleLeft := none, move := none, lastResult := some r }).post .axis)

/-- A further drive of the same move begins at a settle (R6). -/
def State.nextDrive (a : Fin 8) (m : Move) (d : Dir) (x : Axis) (s : State) : State :=
  (s.setAxis a (Axis.beginDrive d { x with move := some m })).post .axis

/-- The result of a move whose latch is set (R8 case 1, R14, R15, R21). -/
def AxisLatch.result : AxisLatch → MoveResult
  | .none => .stopped
  | .overcurrent => .tripped
  | .stall => .stalled
  | .referenceFailed => .referenceFailed

/-- The result of a stop cause (R11). -/
def StopCause.result : StopCause → MoveResult
  | .owner => .stopped
  | .preempt r => .aborted r

/-- The result of a move whose arrival check ends it: a back-off ends as REFERENCED (R9, R20). -/
def Move.arrivalResult (m : Move) (arrived : Bool) : MoveResult :=
  if m.leg = some .backoff then .referenced arrived else if arrived then .reached else .missed

/-- The arrival check (R9). -/
def State.arrivalCheck (a : Fin 8) (m : Move) (t : Nat) (s : State) : State :=
  let x := s.axis a
  if distance x.position t ≤ m.tolerance then
    (s.setAxis a { x with stallCount := 0 }).endMove a .idle (m.arrivalResult true)
  else if m.corrective then s.endMove a .idle (m.arrivalResult false)
  else s.nextDrive a { m with corrective := true } (towards x.position t) x

/-- LEG2 has settled after its stall: the learned travel is judged; it fails, or it is written and the back-off
follows (R19, R20, R21). -/
def State.learnTravel (a : Fin 8) (m : Move) (s : State) : State :=
  let x := s.axis a
  if x.position < Config.minTravel || x.position < 2 * x.cfg.margin then
    (State.endMove a .faulted .referenceFailed (s.setAxis a { x with latch := .referenceFailed })).post .fault
  else
    let target := x.position - x.cfg.margin
    let learned := { x with travel := some x.position, referenced := true, stallCount := 0 }
    if distance x.position target ≤ m.tolerance then (s.setAxis a learned).endMove a .idle (.referenced true)
    else s.nextDrive a { m with leg := some .backoff, target := some target, corrective := false }
      (towards x.position target) learned

/-- A STOPPING axis settles (R8). -/
def State.settle (a : Fin 8) (s : State) : State :=
  let x := s.axis a
  if x.activity ≠ .stopping then s
  else if x.latch ≠ .none then s.endMove a .faulted x.latch.result
  else match x.move with
    | none => s.endMove a .idle .stopped
    | some m =>
      match m.stopCause with
      | some c => s.endMove a .idle c.result
      | none =>
        match m.ended, m.leg, m.target with
        | some .endStop, _, _ => s.endMove a .idle .endStop
        | some .stall, some .leg1, _ =>
          s.nextDrive a { m with leg := some .leg2 } .plus { x with position := 0 }
        | some .stall, some .leg2, _ => s.learnTravel a m
        | some .coastLead, _, some t => s.arrivalCheck a m t
        | some .stall, _, _ => s.endMove a .idle .stalled
        | _, _, _ => s.endMove a .idle .stopped

/-! ### Clearing -/

/-- FAULT_CLEAR addressed to an axis (R17, R39). -/
def State.clearAxis (a : Fin 8) (s : State) : State × ReplyStatus :=
  let x := s.axis a
  if x.latch = .none then (s, .done)
  else if x.activity = .faulted then
    (State.call [.arbiter, .tellFree a]
      (((s.setAxis a { x with latch := .none, stallCount := 0, activity := .idle }).post .fault).post .axis), .done)
  else (s, .busy)

end Sys2Proof.Machine
end

