-- ==== Sys2Proof/Machine/Governor.lean ====
section
/-! DEFINITION. The supply governor (chapter 3): heater ceilings, motor requests, the pump's grant and its pauses,
and the return of units. -/

namespace Sys2Proof.Machine

/-! ### Heater ceilings -/

/-- Whether a forcing condition holds, under which every ceiling is 0 (R48). -/
def State.ceilingsForced (s : State) : Bool :=
  s.gov.supply == .low || s.gov.regime || s.power.state == .starting || s.power.state == .sleep

/-- A zone's cap: 100 in BOOST, otherwise its max duty (R48 step 1). -/
def Zone.cap (z : Zone) : Nat :=
  match z.mode with
  | .boost _ => 100
  | .off | .manual _ | .auto _ => z.maxDuty

/-- The demand as R48 takes it: 0 for a zone with a latch or mode OFF. -/
def Zone.wanted (z : Zone) : Nat :=
  if z.latch != .none || z.mode == .off then 0 else z.demand

/-- The largest whole percentage, not above the cap, whose units fit in what is available (R48 step 2). -/
def ceilingFor (rated cap available : Nat) : Nat :=
  if rated = 0 then cap else min cap (100 * available / rated)

/-- The ceilings of zones treated one after another from what is available (R48 steps 1 to 4). -/
def assignCeilings : Nat → List (Nat × Zone) → List Nat
  | _, [] => []
  | available, (rated, z) :: rest =>
    let ceiling := ceilingFor rated z.cap available
    ceiling :: assignCeilings (available - unitsOf rated (min z.wanted ceiling)) rest

/-- The heat controller takes a ceiling: the applied duty is the lesser of demand and ceiling, and 0 while the
mode is OFF or a latch is set (R49, R141). -/
def Zone.withCeiling (c : Nat) (z : Zone) : Zone := { z with ceiling := c, applied := min z.wanted c }

/-- The ceilings from an amount available to the heaters (R48). -/
def State.ceilingsFrom (s : State) (available : Nat) : List Nat :=
  if s.ceilingsForced then [0, 0, 0, 0]
  else assignCeilings available
    [(s.gov.zoneRated[0], s.zones[0]), (s.gov.zoneRated[1], s.zones[1]), (s.gov.zoneRated[2], s.zones[2]),
     (s.gov.zoneRated[3], s.zones[3])]

/-- The ceilings are recomputed from an amount and applied at once; changes post SUPPLY and HEAT (R48, R49,
R60, R149). -/
def State.recomputeFrom (available : Nat) (s : State) : State :=
  let cs := s.ceilingsFrom available
  let zs : Vector Zone 4 :=
    #v[s.zones[0].withCeiling (cs.getD 0 0), s.zones[1].withCeiling (cs.getD 1 0), s.zones[2].withCeiling (cs.getD 2 0),
       s.zones[3].withCeiling (cs.getD 3 0)]
  let ceilingsMoved := zs.toList.map Zone.ceiling != s.zones.toList.map Zone.ceiling
  let appliedMoved := zs.toList.map Zone.applied != s.zones.toList.map Zone.applied
  State.postIf (ceilingsMoved || appliedMoved) .heat (State.postIf ceilingsMoved .supply { s with zones := zs })

/-- The residual: L, less the motor units, less the pump grant (R48). -/
def State.residual (s : State) : Nat := s.gov.limit - s.motorUnits - s.gov.pumpGrant

/-- The ceilings are recomputed from the residual (R48). -/
def State.recompute (s : State) : State := s.recomputeFrom s.residual

/-! ### The pump's grant -/

/-- The valves of the queued cells: the head's is FILL while the pump is RUNNING, every other HOLD (R119). -/
def State.syncValves (s : State) : State :=
  let valve (i : Fin 12) : Valve := if s.cells.pump == .running && s.cells.queue.head? == some i then .fill else .hold
  { s with cells.cells := Vector.ofFn fun i => if s.cells.queue.contains i then { s.cells.cells[i] with valve := valve i } else s.cells.cells[i] }

/-- The pump state is set; a change posts the MASSAGE notice (R135), and the valves follow (R119). -/
def State.setPump (p : PumpState) (s : State) : State :=
  (State.postIf (s.cells.pump != p) .massage { s with cells.pump := p }).syncValves

/-- The governor takes a grant back: the pump becomes PAUSED (R53, R120). -/
def State.pausePump (s : State) : State :=
  if s.cells.pump == .running then
    (State.setPump .paused { s with gov.pumpGrant := 0, cells.offTime := 0 }).post .supply
  else s

/-- Whether a pump request is granted (R52). -/
def State.pumpFits (s : State) : Bool :=
  decide (s.gov.pumpRated + s.motorUnits ≤ s.gov.limit)
    && (s.gov.supply == .normal || s.braceCellQueued)
    && (!s.gov.regime || s.braceCellQueued)

/-- A WAITING or PAUSED pump is decided: granted if it fits, otherwise left as it is (R52, R53). The grant is a re-admission, which
posts SUPPLY, where the pump was PAUSED and not where it was WAITING (R45, R54, log 44: the model's choice). -/
def State.decidePump (s : State) : State :=
  if (s.cells.pump == .waiting || s.cells.pump == .paused) && s.pumpFits then
    (State.postIf (s.cells.pump == .paused) .supply
      (State.setPump .running { s with gov.pumpGrant := s.gov.pumpRated })).recompute
  else s

/-- The cell controller asks for the pump: WAITING, decided at once (R52, R120). -/
def State.requestPump (s : State) : State := (s.setPump .waiting).decidePump

/-- Units have come back, before the arbiter's run: the pump is decided, then the ceilings are recomputed
(R54 steps 1 and 2). -/
def State.regrant (s : State) : State := s.decidePump.recompute

/-- Units have come back (R54). -/
def State.unitsReturned (s : State) : State := s.regrant.call [.arbiter]

/-- The pump leaves WAITING, RUNNING or PAUSED for a state without a request: a RUNNING pump's grant is returned,
a request is withdrawn (R52, R120). -/
def State.dropPump (p : PumpState) (s : State) : State :=
  if s.cells.pump == .running then
    (State.setPump p { s with gov.pumpGrant := 0, cells.offTime := 0 }).unitsReturned
  else s.setPump p

/-- The governor's pause under supply LOW or the brace regime, which tells the claim unit (R53, R56, R57). -/
def State.forcePause (s : State) : State :=
  if s.cells.pump == .running && !s.braceCellQueued then s.pausePump.recompute.call [.arbiter] else s

/-! ### Motor requests -/

/-- The fixed pump units: the pump grant while a BRACE cell is queued (R50). -/
def State.fixedPump (s : State) : Nat := if s.braceCellQueued then s.gov.pumpGrant else 0

/-- Whether a motor request is granted (R50). -/
def State.motorFits (s : State) (units : Nat) (isBrace : Bool) : Bool :=
  (s.gov.supply == .normal || isBrace) && decide (units + s.motorUnits + s.fixedPump ≤ s.gov.limit)

/-- The units of a granted request are found: from the free units, then heat, then the pump (R51). -/
def State.findUnits (units : Nat) (s : State) : State :=
  let heated := if units ≤ s.freeUnits then s else s.recomputeFrom (s.gov.limit - (s.motorUnits + units) - s.gov.pumpGrant)
  if s.gov.limit < s.motorUnits + units + s.gov.pumpGrant then heated.pausePump else heated

/-! ### Supply state and brace regime -/

/-- The supply state becomes LOW (R56). -/
def State.enterLow (s : State) : State :=
  if s.gov.supply == .low then s
  else (((State.recompute { s with gov.supply := .low }).post .supply).post .fault).forcePause

/-- The supply state returns to NORMAL (R56). -/
def State.leaveLow (s : State) : State :=
  if s.gov.supply == .normal then s
  else ((State.unitsReturned { s with gov.supply := .normal }).post .supply).post .fault

/-- The brace regime turns on (R57). -/
def State.regimeOn (s : State) : State :=
  if s.gov.regime then s else ((State.recompute { s with gov.regime := true }).post .supply).forcePause

/-- The brace regime turns off (R57). -/
def State.regimeOff (s : State) : State :=
  if s.gov.regime then (State.unitsReturned { s with gov.regime := false }).post .supply else s

end Sys2Proof.Machine
end

