-- ==== Sys2Proof/Machine/Retained.lean ====
section
/-! DEFINITION. The retained-record store: the write-pending set, the writer, and the parking standing (chapter 11). -/

namespace Sys2Proof.Machine

/-- The lowest-numbered pending profile slot (R187). -/
def RetainedStore.lowestPending (r : RetainedStore) : Option (Fin 6) :=
  (List.finRange 6).find? fun p => r.pendingProfiles[p]

/-- When no write is in progress and the set is not empty, a write begins: the parking record first, otherwise
the lowest-numbered pending profile; it carries the record as it stands. A parking write with valid = yes
makes the standing VALID (R187, R190). -/
def State.beginWrite (s : State) : State :=
  match s.store.job with
  | some _ => s
  | none =>
    if s.store.pendingParking then
      { s with
        store := { s.store with job := some (.parking s.store.parkingNext), pendingParking := false }
        power.standing := if s.store.parkingNext.valid then .valid else s.power.standing }
    else match s.store.lowestPending with
      | some p =>
        { s with store := { s.store with
            job := some (.profile p (s.profile p).content), pendingProfiles := s.store.pendingProfiles.set p false } }
      | none => s

/-- A profile is added to the write-pending set (R83, R187). -/
def State.addProfileWrite (p : Fin 6) (s : State) : State :=
  State.beginWrite { s with store.pendingProfiles := s.store.pendingProfiles.set p true }

/-- The parking record is added to the write-pending set with this content (R187, R188). -/
def State.addParkingWrite (r : ParkingRecord) (s : State) : State :=
  State.beginWrite { s with store := { s.store with pendingParking := true, parkingNext := r } }

/-- Whether a slot is write-pending or its write is in progress (R90, R101). -/
def State.profilePending (s : State) (p : Fin 6) : Bool := s.store.pendingProfiles[p]

/-- Whether a slot's write is in progress (R90). -/
def State.profileWriting (s : State) (p : Fin 6) : Bool :=
  match s.store.job with
  | some (.profile q _) => q == p
  | some (.parking _) | none => false

/-- The parking invalidation of the first start while the standing is VALID (R188). -/
def State.invalidateParking (s : State) : State :=
  if s.power.standing == .valid then
    State.addParkingWrite .cleared { s with power.standing := .invalidating }
  else s

/-- Each axis's referenced flag, position and travel as they stand, with valid = yes (R190). -/
def State.parkingRecord (s : State) : ParkingRecord :=
  ⟨true, s.axes.map fun x => ⟨x.referenced, x.position, x.travel⟩⟩

/-- The end of a profile's write: the image holds what the write carried, and the slot is persisted unless it has
been marked again (R91). -/
def State.profileWritten (p : Fin 6) (c : ProfileContent) (s : State) : State :=
  let done := { s with store := { s.store with profileAreas := s.store.profileAreas.set p (.good c), job := none } }
  if s.store.pendingProfiles[p] then done
  else State.post .profile { done with profiles := upd s.profiles p fun x => { x with persisted := true } }

/-- The end of a parking write: an invalidation makes the standing INVALID and lets the arbiter run (R188); the write
of a shutdown is written (R190). -/
def State.parkingWritten (r : ParkingRecord) (s : State) : State :=
  let done := { s with store := { s.store with parkingArea := .good r, job := none } }
  if r.valid then
    if s.power.state == .shuttingDown && s.power.phase == .writing then { done with power.phase := .written } else done
  else if s.power.standing == .invalidating && !s.store.pendingParking then
    State.call [.arbiter] { done with power.standing := .invalid }
  else done

/-- A retained-record write ends, its owner is told, and the next pending write begins (R187). -/
def State.endWrite (s : State) : State :=
  match s.store.job with
  | none => s
  | some (.parking r) => (s.parkingWritten r).beginWrite
  | some (.profile p c) => (s.profileWritten p c).beginWrite

/-- A reset tears the write in progress: that record fails its check (R187). -/
def RetainedStore.torn (r : RetainedStore) : RetainedStore :=
  match r.job with
  | none => r
  | some (.parking _) => { r with parkingArea := .torn }
  | some (.profile p _) => { r with profileAreas := r.profileAreas.set p .torn }

end Sys2Proof.Machine
end

