-- ==== Sys2Proof/Machine/Claims.lean ====
section
/-! DEFINITION. The claim unit (chapter 2): deciding claims, the start queue, the start arbiter, the end of a move, stops
and releases. A claim is written as the queue entry it asks for. -/

namespace Sys2Proof.Machine

/-! ### The start queue -/

/-- Owner priority in the start queue, the first lowest (R28). -/
def Owner.rank : Owner → Nat
  | .brace => 0 | .switch => 1 | .link => 2 | .plan => 3 | .none => 4

/-- The queue entry of an axis (R28). -/
def State.entryOf (s : State) (a : Fin 8) : Option Entry := s.claims.queue.find? (·.axis == a)

/-- An axis's entry leaves the queue. -/
def State.dropEntry (a : Fin 8) (s : State) : State :=
  { s with claims.queue := s.claims.queue.filter (·.axis != a) }

/-- An entry is placed after every entry of its own or a higher owner (R28). -/
def placeEntry (e : Entry) (q : List Entry) : List Entry :=
  q.takeWhile (fun x => decide (x.owner.rank ≤ e.owner.rank)) ++ e :: q.dropWhile fun x => decide (x.owner.rank ≤ e.owner.rank)

/-! ### Deciding a claim -/

/-- The answer of R34 to a PLAN claim on an axis owned by LINK: queued behind a running move that is no
referencing, otherwise HELD. -/
def State.decideBehindLink (s : State) (a : Fin 8) : ClaimAnswer :=
  if (s.entryOf a).any (·.owner == .link) then .held
  else if s.movingFor a .link && !(s.slotOf a).any (·.kind == .reference) then .admitted
  else .held

/-- A claim from the owner the axis already has (R30). -/
def State.decideSameOwner (s : State) (e : Entry) : ClaimAnswer :=
  if (s.entryOf e.axis).any (·.owner == e.owner) then .admitted
  else if s.movingFor e.axis e.owner then .held
  else .admitted

/-- The table of R29. A SWITCH claim over a LINK entry is taken over also where the axis still coasts under a released move of
SWITCH's own, although R28 wants no entry behind a move of its own owner (log 43: the model's choice). -/
def State.decideByOwner (s : State) (e : Entry) : ClaimAnswer :=
  match e.owner, s.owner e.axis with
  | _, .none => if s.movingFor e.axis e.owner then .held else .admitted
  | .brace, .brace | .switch, .switch | .link, .link | .plan, .plan => s.decideSameOwner e
  | .brace, _ => .admitted
  | .switch, .brace => .ignored
  | .switch, _ => .admitted
  | .link, .brace | .plan, .brace => .refused
  | .link, _ | .plan, .switch => .held
  | .plan, .link => s.decideBehindLink e.axis
  | .none, _ => .refused

/-- The conditions of R31 to R34, R42 and R43 that come before the table of R29. A PLAN claim on an axis that runs a LINK REFERENCE and
is unreferenced by it is REFUSED, not HELD (R34, log 55: the model's choice). -/
def State.decideClaim (s : State) (e : Entry) : ClaimAnswer :=
  let braced := s.brace.state != .idle
  let axis := s.axis e.axis
  match e.owner with
  | .brace => if axis.activity == .faulted then .refused else s.decideByOwner e
  | .switch =>
    if s.brace.state == .bracing || s.brace.state == .braced || s.brace.state == .holding then .ignored
    else if s.power.state != .awake || axis.activity == .faulted then .refused
    else s.decideByOwner e
  | .link => if s.power.state != .awake || braced || axis.activity == .faulted then .refused else s.decideByOwner e
  | .plan =>
    if s.power.state != .awake || braced || axis.activity == .faulted || !axis.referenced then .refused
    else s.decideByOwner e
  | .none => .refused

/-- The reason under which a higher owner's claim ends a lower owner's (R29, R35). -/
def Owner.reason : Owner → Reason
  | .brace => .brace
  | .switch => .switch
  | .link | .plan | .none => .replaced

/-- The reason under which an entry is replaced (R35). -/
def replaceReason (old new : Owner) : Reason := if old = new then .replaced else new.reason

/-- The earlier entry of the axis is removed and reported withdrawn (R35). -/
def State.replaceEntry (e : Entry) (s : State) : State :=
  match s.entryOf e.axis with
  | some old => (s.dropEntry e.axis).call [.withdrawn old (.aborted (replaceReason old.owner e.owner))]
  | none => s

/-- A claim is admitted: an earlier entry is replaced, a move of a lower owner is stopped, the owner is set and the
entry queued (R29, R34, R35). A PLAN entry behind a LINK move leaves the owner and the move as they are. -/
def State.admitEntry (e : Entry) (s : State) : State :=
  let behind := e.owner == .plan && s.owner e.axis == .link
  let old := s.owner e.axis
  let r := s.replaceEntry e
  let owned :=
    if behind then r
    else State.setOwner e.axis e.owner
      (if old != e.owner && old != .none && r.movingFor e.axis old then r.stopRequest e.axis (.preempt e.owner.reason) else r)
  { owned with claims.queue := placeEntry e owned.claims.queue }

/-- A HELD claimant is kept; LINK is not (R26). -/
def State.hold (a : Fin 8) (o : Owner) (s : State) : State :=
  { s with claims.held := upd s.claims.held a fun h =>
      match o with
      | .brace => { h with brace := true }
      | .switch => { h with switch := true }
      | .plan => { h with plan := true }
      | .link | .none => h }

/-- A claim on one axis is decided, and taken where it is admitted; the arbiter runs (R29, R36). -/
def State.claim (e : Entry) (s : State) : State × ClaimAnswer :=
  match s.decideClaim e with
  | .admitted => ((s.call [.arbiter]).admitEntry e, .admitted)
  | .held => (s.hold e.axis e.owner, .held)
  | .refused => (s, .refused)
  | .ignored => (s, .ignored)

/-- The answer to a grouped PLAN claim: REFUSED if any member would be, otherwise HELD if any member would be
(R34, log 16). -/
def groupAnswer (answers : List ClaimAnswer) : ClaimAnswer :=
  if answers.contains .refused then .refused
  else if answers.contains .held then .held
  else .admitted

/-- A grouped claim (R34): all members queued together, or none. A plan whose grouped claim is HELD is kept HELD on the members that
would be HELD themselves, and on no other (R26, log 56: the model's choice). -/
def State.claimGroup (es : List Entry) (s : State) : State × ClaimAnswer :=
  match groupAnswer (es.map s.decideClaim) with
  | .admitted => (es.foldl (fun t e => t.admitEntry e) (s.call [.arbiter]), .admitted)
  | .held => (es.foldl (fun t e => if s.decideClaim e = .held then t.hold e.axis e.owner else t) s, .held)
  | answer => (s, answer)

/-! ### The start arbiter -/

/-- Whether every axis of a unit is free: it is IDLE, and the slot of its last move has been given back (R28, R36, R38). -/
def State.unitFree (s : State) (es : List Entry) : Bool :=
  es.all fun e => (s.axis e.axis).activity == .idle && (s.slotOf e.axis).isNone

/-- The first unit of the queue whose axes are free: an entry, or a whole group at the place of its first member
(R36). `skip` is a group already passed over. -/
def State.startUnit (s : State) : Option Nat → List Entry → Option (List Entry)
  | _, [] => none
  | skip, e :: rest =>
    match e.group with
    | none => if s.unitFree [e] then some [e] else s.startUnit skip rest
    | some g =>
      let members := e :: rest.takeWhile fun x => x.group == some g
      if skip != some g && s.unitFree members then some members else s.startUnit (some g) rest

/-- One member of a granted unit takes its slot and leaves the queue (R37). -/
def State.takeStart (e : Entry) (s : State) : State :=
  State.dropEntry e.axis (s.takeSlot { axis := e.axis, owner := e.owner, kind := e.kind, units := (s.axis e.axis).cfg.ratedUnits })

/-- The rated units of a unit of the queue (R37). -/
def State.unitsOfStart (s : State) (es : List Entry) : Nat := (es.map fun e => (s.axis e.axis).cfg.ratedUnits).sum

/-- What is reported of a granted unit: each start, and with it the result of one that completes without driving. Every member is
reported before any block judges what follows (R5, R37, R38, R69). -/
def State.startReports (s : State) (es : List Entry) : List Work :=
  es.flatMap fun e =>
    .started e.owner e.axis :: if (s.axis e.axis).activity == .idle then [.completed e.axis e.goal.jogDir] else []

/-- A granted unit starts: the units are found, the slots taken, the ceilings recomputed, and each axis given its start
(R37, R47, R51). -/
def State.startUnits (es : List Entry) (s : State) : State :=
  let charged := (es.foldl (fun t e => t.takeStart e) (s.findUnits (s.unitsOfStart es))).recompute
  let given := es.foldl (fun t e => t.startAxis e.axis e.kind e.goal) charged
  given.call (given.startReports es ++ [.arbiter, .planCheck, .braceCheck])

/-- The start arbiter treats the first unit whose axes are free: it starts, or it blocks for want of slots or units or,
where it is no BRACE entry, behind the parking invalidation (R36, R37, R188). -/
def State.arbiter (s : State) : State :=
  match s.startUnit none s.claims.queue with
  | none => s
  | some es =>
    let isBrace := es.all (·.owner == .brace)
    if s.freeSlots < es.length || !s.motorFits (s.unitsOfStart es) isBrace then s
    else if isBrace || s.power.standing == .invalid then s.invalidateParking.startUnits es
    else s.invalidateParking

/-! ### The end of a move -/

/-- A move has ended and left its axis at rest: the slot and its units come back, the result is passed on, the owner is settled, HELD
claimants are told, and then what is named here follows (R38 steps 1 to 4, R39). -/
def State.returnSlot (a : Fin 8) (r : MoveResult) (d : Option Dir) (after : List Work) (s : State) : State :=
  match s.slotOf a with
  | none => s
  | some x =>
    if (s.axis a).moving then s
    else (s.freeSlotOf a).regrant.call ([.result x.owner a r d, .settleOwner a x.owner, .tellFree a] ++ after)

/-- A move has ended at a settle: the arbiter runs at the end (R38, R39). -/
def State.moveOver (a : Fin 8) (r : MoveResult) (d : Option Dir) (s : State) : State :=
  s.returnSlot a r d [.arbiter, .planCheck, .braceCheck]

/-- A start has completed without driving (R5, R37): R38 is applied to it as to a settle, and the arbiter runs once the whole unit has
been reported. -/
def State.startCompleted (a : Fin 8) (d : Option Dir) (s : State) : State := s.returnSlot a .reached d []

/-- The owner of an axis after a settle (R38 step 3, R39). An entry of the move's own owner, as log 43 lets one be queued, does not
keep the owner. -/
def State.settleOwner (a : Fin 8) (moveOwner : Owner) (s : State) : State :=
  if (s.axis a).activity = .faulted then
    let free := s.setOwner a .none
    match s.entryOf a with
    | some e => (free.dropEntry a).call [.withdrawn e (.aborted .axisFault)]
    | none => free
  else if moveOwner = .link && (s.entryOf a).any (·.owner == .plan) then s.setOwner a .plan
  else if s.owner a = moveOwner then s.setOwner a .none
  else s

/-- The HELD claimants of an axis are told that it is free, in owner priority, and are kept no longer (R30, log 13). -/
def State.tellFree (a : Fin 8) (s : State) : State :=
  let h := s.claims.held[a]
  State.call ((if h.brace then [.braceFree a] else []) ++ (if h.switch then [.switchFree a] else [])
      ++ (if h.plan then [.planFree a] else []))
    { s with claims.held := s.claims.held.set a ⟨false, false, false⟩ }

/-- A withdrawn LINK entry is reported in the axis's last result (R41). -/
def State.linkWithdrawn (a : Fin 8) (r : MoveResult) (s : State) : State :=
  (s.setAxis a { s.axis a with lastResult := some r }).post .axis

/-! ### Stopping and withdrawing -/

/-- Whether an axis has a queue entry of an owner. -/
def State.queuedFor (s : State) (a : Fin 8) (o : Owner) : Bool := (s.entryOf a).any (·.owner == o)

/-- Owner stops of one owner on the axes given, in one act (R40): queued entries are withdrawn STOPPED and their owners return to
NONE, moves are sent a stop request. -/
def State.ownerStop (o : Owner) (as : List (Fin 8)) (s : State) : State :=
  let gone := s.claims.queue.filter fun e => e.owner == o && as.contains e.axis
  let moving := as.filter fun a => !s.queuedFor a o && s.movingFor a o
  let stopped := moving.foldl (fun t a => t.stopRequest a .owner) s
  let queued : State := { stopped with
    claims.queue := stopped.claims.queue.filter fun e => !(e.owner == o && as.contains e.axis) }
  let freed := gone.foldl (fun t e => if t.owner e.axis = o then t.setOwner e.axis .none else t) queued
  freed.call (gone.map (fun e => .withdrawn e .stopped) ++ gone.map (fun e => .tellFree e.axis)
    ++ if gone.isEmpty then [] else [.arbiter])

/-- The axes in ascending order. -/
def allAxes : List (Fin 8) := List.finRange 8

/-- A release of every claim of one owner (R41). -/
def State.release (o : Owner) (c : StopCause) (s : State) : State :=
  let stopped := (allAxes.filter fun a => s.movingFor a o).foldl (fun t a => t.stopRequest a c) s
  let gone := s.claims.queue.filter (·.owner == o)
  let owned := allAxes.filter fun a => s.owner a == o
  let queued : State := { stopped with claims.queue := stopped.claims.queue.filter (·.owner != o) }
  let released := owned.foldl (fun t a => t.setOwner a .none) queued
  released.call (gone.map (fun e => .withdrawn e c.result) ++ owned.map .tellFree ++ [.arbiter])

/-! ### Host commands -/

/-- The reply to a LINK claim (R33). -/
def ClaimAnswer.linkReply : ClaimAnswer → ReplyStatus
  | .admitted => .accepted
  | .held => .busy
  | .refused | .ignored => .refused

/-- A LINK claim, with its reply (R33). -/
def State.linkClaim (a : Fin 8) (kind : MoveKind) (goal : Goal) (s : State) : State × ReplyStatus :=
  let (t, answer) := s.claim ⟨a, .link, kind, goal, none⟩
  (t, answer.linkReply)

/-- The rows of R33 that MOVE and JOG share, down to a move of LINK that still runs or coasts. -/
def State.linkGate (s : State) (a : Fin 8) : Option ReplyStatus :=
  if s.power.state ≠ .awake || s.brace.state ≠ .idle then some .refused
  else if s.owner a = .brace then some .refused
  else if (s.axis a).activity = .faulted then some .refused
  else if s.owner a = .switch || s.owner a = .plan then some .busy
  else if s.movingFor a .link then some .busy
  else none

/-- MOVE on an axis, to a target in range (R33). -/
def State.moveCommand (a : Fin 8) (target : Nat) (s : State) : State × ReplyStatus :=
  match s.linkGate a with
  | some r => (s, r)
  | none =>
    if (s.axis a).activity ≠ .idle then (s, .busy)
    else if !(s.axis a).referenced then (s, .refused)
    else match (s.axis a).limits with
      | none => (s, .refused)
      | some (lo, hi) =>
        if target < lo || hi < target then (s, .badParameter) else s.linkClaim a .targeted (.target target)

/-- JOG of an axis (R33). -/
def State.jogCommand (a : Fin 8) (d : Dir) (s : State) : State × ReplyStatus :=
  match s.linkGate a with
  | some r => (s, r)
  | none => s.linkClaim a .jog (.dir d)

/-- REFERENCE of an axis (R18). -/
def State.referenceCommand (a : Fin 8) (s : State) : State × ReplyStatus :=
  let x := s.axis a
  if s.power.state ≠ .awake || s.brace.state ≠ .idle then (s, .refused)
  else if x.activity = .faulted || x.latch ≠ .none then (s, .refused)
  else if x.moving || s.owner a ≠ .none then (s, .busy)
  else s.linkClaim a .reference .none

/-- HALT of one axis (R40). -/
def State.haltAxis (a : Fin 8) (s : State) : State × ReplyStatus :=
  match s.owner a with
  | .none => (s, .done)
  | .link => (s.ownerStop .link [a], .done)
  | .switch | .plan => (s, .busy)
  | .brace => (s, .refused)

/-- HALT of all axes (R40). -/
def State.haltAll (s : State) : State :=
  s.ownerStop .link (allAxes.filter fun a => s.owner a == .link)

end Sys2Proof.Machine
end

