-- ==== Sys2Proof/Machine/Heat.lean ====
section
/-! DEFINITION. The heat controller (chapter 8): demands, modes, boosts, temperature readings, latches and periods. -/

namespace Sys2Proof.Machine

/-! ### Demand -/

/-- AUTO demand before its cap: 5 percent for each half-degree below the setpoint (R139). With an INVALID temperature and no latch, as
a reset can leave a zone until its next reading, it is 0 (log 53: the model's choice). -/
def autoDemand (setpoint : Nat) (temperature : Option Int) : Nat :=
  match temperature with
  | some t => 5 * ((setpoint : Int) - t).toNat
  | none => 0

/-- The demand a zone's mode asks for; 0 with a latch (R139). -/
def Zone.modeDemand (z : Zone) : Nat :=
  if z.latch ≠ .none then 0
  else match z.mode with
    | .off => 0
    | .manual d => min d z.maxDuty
    | .auto sp => min (autoDemand sp z.temperature) z.maxDuty
    | .boost _ => 100

/-- The demand is worked out, and a change of it, or of the cap (`always`), reported to the governor, which recomputes the
ceilings. The applied duty is the lesser of demand and ceiling at every moment between (R139, R141). -/
def State.workOutDemand (always : Bool) (z : Fin 4) (s : State) : State :=
  let x := s.zone z
  let written := { x with demand := x.modeDemand }
  let fallen := written.withCeiling (min x.applied x.ceiling)
  if always || written.demand != x.demand || x.applied != fallen.applied then
    (State.postIf (x.applied != fallen.applied) .heat
      (s.setZone z { fallen with ceiling := x.ceiling })).recompute
  else s.setZone z written

/-! ### Modes -/

/-- Whether a boost set at this temperature begins: it is INVALID or below the setpoint (R140). -/
def boostBegins (setpoint : Nat) (temperature : Option Int) : Bool :=
  match temperature with
  | some t => decide (t < (setpoint : Int))
  | none => true

/-- A mode is written; a boost begins with its full time, or ends as soon as it is set (R138, R140). -/
def Zone.withMode (m : ZoneMode) (z : Zone) : Zone :=
  match m with
  | .boost sp =>
    if boostBegins sp z.temperature then { z with mode := .boost sp, boostLeft := some Config.boostMs }
    else { z with mode := .auto sp, boostLeft := none }
  | .off | .manual _ | .auto _ => { z with mode := m, boostLeft := none }

/-- A zone's mode is set, by any path (R138, R140, R147, R148). The cap of the zone follows its mode, so the governor always
recomputes. The HEAT notice is posted for a mode that is another after the act than before it: not for a boost set again at its
setpoint, nor for one that ends as soon as it is set in a zone already AUTO there (R149, log 38: the model's choice). -/
def State.setMode (z : Fin 4) (m : ZoneMode) (s : State) : State :=
  let x := (s.zone z).withMode m
  State.workOutDemand true z (State.postIf ((s.zone z).mode != x.mode) .heat (s.setZone z x))

/-- The zones in ascending order. -/
def allZones : List (Fin 4) := List.finRange 4

/-- Every zone is set OFF (R147, R148). -/
def State.heatOff (s : State) : State := allZones.foldl (fun t z => t.setMode z .off) s

/-- A boost ends by setpoint or expiry: AUTO at its setpoint (R140). -/
def State.endBoost (z : Fin 4) (s : State) : State :=
  match (s.zone z).mode with
  | .boost sp =>
    State.workOutDemand true z ((s.setZone z { s.zone z with mode := .auto sp, boostLeft := none }).post .heat)
  | .off | .manual _ | .auto _ => s

/-! ### Readings and latches -/

/-- Lowest and highest plausible reading, in hundredths of a degree (R137). -/
def plausibleReading (r : Int) : Bool := decide (-4000 ≤ r) && decide (r ≤ 12000)

/-- The nearest half-degree step to a reading in hundredths of a degree; a reading half way goes as the free value
`Config.tieRoundsUp` says (R137, log 10). -/
def nearestHalf (r : Int) : Int :=
  let low := r / 50
  let rest := r % 50
  if rest < 25 then low else if 25 < rest then low + 1 else if Config.tieRoundsUp r then low + 1 else low

/-- A latch is set, replaced or cleared (R144 to R146). -/
def State.setZoneLatch (z : Fin 4) (l : ZoneLatch) (s : State) : State :=
  if (s.zone z).latch = l then s
  else State.workOutDemand true z (((s.setZone z { s.zone z with latch := l }).post .fault).post .heat)

/-- A temperature reading, in hundredths of a degree (R137, R140, R144, R145). One at or above 60 °C in BOOST latches OVERTEMP and then
ends the boost in AUTO, for it is at or above every setpoint (log 37: the model's choice between R140 and R144). -/
def State.temperatureReading (z : Fin 4) (r : Int) (s : State) : State :=
  if plausibleReading r then
    let read := s.setZone z { s.zone z with temperature := some (nearestHalf r) }
    let judged := if 6000 ≤ r ∧ (read.zone z).latch = .none then read.setZoneLatch z .overtemp else read
    match (judged.zone z).mode with
    | .boost sp => if 50 * (sp : Int) ≤ r then judged.endBoost z else judged
    | .off | .manual _ | .auto _ => judged
  else
    let read := s.setZone z { s.zone z with temperature := none }
    read.setZoneLatch z .sensor

/-- FAULT_CLEAR addressed to a zone (R146). Temperatures are in half-degree steps. -/
def State.clearZone (z : Fin 4) (s : State) : State × ReplyStatus :=
  match (s.zone z).latch, (s.zone z).temperature with
  | .none, _ => (s, .done)
  | .overtemp, some t => if t < 90 then (s.setZoneLatch z .none, .done) else (s, .busy)
  | .overtemp, none => (s, .busy)
  | .sensor, none => (s, .busy)
  | .sensor, some t => (s.setZoneLatch z (if t < 120 then .none else .overtemp), .done)

/-! ### Periods -/

/-- A PWM period starts: the demand is worked out and the period's time begins anew (R142). -/
def State.periodStart (z : Fin 4) (s : State) : State :=
  State.workOutDemand false z (s.setZone z { s.zone z with periodTime := some 0 })

/-- The on-time of a zone's period, in ms (R142). -/
def Zone.onTime (z : Zone) : Nat := z.applied * (Config.periodMs / 100)

/-- The on-time of the period under way has passed: the output is off for the rest of it, unless it stays on for the whole
period (R142). -/
def State.onTimeEnd (z : Fin 4) (s : State) : State :=
  let x := s.zone z
  match x.periodTime with
  | some t => if x.applied < 100 then s.setZone z { x with periodTime := some (max t x.onTime) } else s
  | none => s

/-- The max duty of a zone is changed: demand and ceilings are worked out anew (R143). -/
def State.setMaxDuty (z : Fin 4) (d : Nat) (s : State) : State :=
  State.workOutDemand true z (s.setZone z { s.zone z with maxDuty := d })

end Sys2Proof.Machine
end

