-- ==== Sys2Proof/Machine/Cells.lean ====
section
/-! DEFINITION. The cell controller (chapter 7): the fill queue, the pump, regulation, leaks and the requests that set a
cell's target; and the bolster progress of the brace controller, which follows them (R167). -/

namespace Sys2Proof.Machine

/-! ### Bolster progress -/

/-- The progress of a bolster is set, while a brace is under way; a FAILED progress sets BOLSTER_FAIL (R167, R170). -/
def State.setBolster (c : Fin 12) (p : BolsterProgress) (s : State) : State :=
  if s.brace.state = .idle then s
  else
    let fail := s.brace.bolsterFail || p == .failed
    if c = 10 then
      State.postIf (s.brace.bolster10 != p || fail != s.brace.bolsterFail) .brace
        { s with brace := { s.brace with bolster10 := p, bolsterFail := fail } }
    else if c = 11 then
      State.postIf (s.brace.bolster11 != p || fail != s.brace.bolsterFail) .brace
        { s with brace := { s.brace with bolster11 := p, bolsterFail := fail } }
    else s

/-- A report on a cell to the brace controller: it counts for a bolster owned by BRACE (R126, R167). -/
def State.reportBolster (c : Fin 12) (p : BolsterProgress) (s : State) : State :=
  if (s.cell c).owner = .brace then s.setBolster c p else s

/-! ### The pump after a change of the fill queue -/

/-- Whether a rest is due: the run time has reached 120 s and no BRACE cell is queued (R121). -/
def State.restDue (s : State) : Bool := decide (Config.runLimitMs ≤ s.cells.runTime) && !s.braceCellQueued

/-- The pump follows a change of the fill queue (R52, R57, R119 to R121). `joined` says that a BRACE cell has joined. -/
def State.settlePump (joined : Bool) (s : State) : State :=
  match s.cells.pump with
  | .tripped => s.syncValves
  | .resting => if s.braceCellQueued then s.requestPump else s.syncValves
  | .idle =>
    if s.restDue then s.setPump .resting
    else if s.cells.queue.isEmpty then s
    else s.requestPump
  | .waiting | .running | .paused =>
    if s.restDue then s.dropPump .resting
    else if s.cells.queue.isEmpty then s.dropPump .idle
    else
      let decided := if joined then s.syncValves.decidePump else s.syncValves
      if decided.gov.regime then decided.forcePause else decided

/-! ### Joining and leaving the fill queue -/

/-- A cell's place in the fill queue: a BRACE cell behind the BRACE cells at the front, any other at the tail (R118). -/
def State.placeCell (c : Fin 12) (s : State) : State :=
  let isBrace (d : Fin 12) : Bool := (s.cell d).owner == .brace
  if isBrace c then { s with cells.queue := s.cells.queue.takeWhile isBrace ++ c :: s.cells.queue.dropWhile isBrace }
  else { s with cells.queue := s.cells.queue ++ [c] }

/-- A cell is taken from the fill queue. -/
def State.unqueue (c : Fin 12) (s : State) : State :=
  { s with cells.queue := s.cells.queue.filter (· != c) }

/-- A cell joins the fill queue, with its valve at HOLD until it is head; not in SHUTTING_DOWN (R117, R118, R134). A BRACE
cell that joins is FILLING, or FAILED while the pump is TRIPPED (R167). -/
def State.joinQueue (c : Fin 12) (s : State) : State :=
  let held := s.setCell c { s.cell c with valve := .hold }
  if s.power.state = .shuttingDown then held
  else
    let isBrace := (s.cell c).owner == .brace
    (State.reportBolster c (if s.cells.pump = .tripped then .failed else .filling) (held.placeCell c)).settlePump isBrace

/-- A cell leaves the fill queue at its target, with its fill time set to 0; its valve becomes HOLD, or VENT where it stands
above its band (R117, R118). -/
def State.leaveQueue (c : Fin 12) (s : State) : State :=
  let x := s.cell c
  let left := { x with fillTime := 0, valve := if x.target + Config.hysteresis < x.pressure then .vent else .hold }
  (((s.setCell c left).unqueue c).reportBolster c .held).settlePump false

/-! ### Regulation -/

/-- Whether a cell being vented has been vented enough (R117). -/
def Cell.vented (x : Cell) : Bool :=
  if x.target = 0 then decide (x.pressure ≤ Config.emptyPressure) else decide (x.pressure ≤ x.target)

/-- A cell at VENT is held where it has been vented to its target, and otherwise vents on (R117). A bolster held so is reported HELD,
also one that stands below its target, as after the clear of a LEAK (R167, log 49: the model's choice). -/
def State.endVent (c : Fin 12) (s : State) : State :=
  let x := s.cell c
  if x.vented then (s.setCell c { x with valve := .hold }).reportBolster c .held else s

/-- Regulation of a cell by its present pressure and target (R117), as at a change of its target. A cell with a LEAK latch is only held once it has been vented (R123). A cell at HOLD with target 0
and a pressure of 3 or 4 stays at HOLD, also where R125, R133 or R134 has it vent to 2 (log 46: the model's choice). -/
def State.regulate (c : Fin 12) (s : State) : State :=
  let x := s.cell c
  if x.latch = .leak then
    if x.valve = .vent ∧ x.pressure ≤ Config.emptyPressure then s.setCell c { x with valve := .hold } else s
  else if s.cells.queue.contains c then
    if x.target ≤ x.pressure then s.leaveQueue c else s
  else if x.pressure + Config.hysteresis < x.target then s.joinQueue c
  else match x.valve with
    | .vent => s.endVent c
    | .hold | .fill => if x.target + Config.hysteresis < x.pressure then s.setCell c { x with valve := .vent } else s

/-- A pressure reading, recorded as at most 120 (R115, R117). A reading ends the venting of a cell at or below its target and no
more, however far below: joining the queue from VENT is for the change that raises the target (log 26). -/
def State.pressureReading (c : Fin 12) (reading : Nat) (s : State) : State :=
  let x := { s.cell c with pressure := min reading Config.maxPressure }
  let read := s.setCell c x
  if x.latch = .none ∧ x.valve = .vent ∧ c ∉ s.cells.queue then read.endVent c else read.regulate c

/-! ### Setting a target -/

/-- A request sets a cell's target and owner, moves a queued cell whose owner becomes or stops being BRACE, and is followed
by regulation (R116, R118). -/
def State.setTarget (c : Fin 12) (target : Nat) (owner : CellOwner) (s : State) : State :=
  let x := s.cell c
  let set := State.postIf (x.owner != owner) .massage (s.setCell c { x with target := target, owner := owner })
  if s.cells.queue.contains c && ((x.owner == .brace) != (owner == .brace)) then
    let moved := ((set.unqueue c).placeCell c).regulate c
    if moved.cells.queue.contains c then
      (if s.cells.pump = .tripped then moved.reportBolster c .failed else moved).settlePump (owner == .brace)
    else moved
  else set.regulate c

/-- A support set or a brace return: owner SUPPORT, or NONE for target 0 (R116). -/
def State.supportSet (c : Fin 12) (target : Nat) (s : State) : State :=
  s.setTarget c target (if target = 0 then .none else .support)

/-! ### Leaks and the pump's own events -/

/-- A cell has been filled for 8 s without reaching its target (R123). Only the head fills, while the pump runs. -/
def State.leak (c : Fin 12) (s : State) : State :=
  if s.cells.pump = .running ∧ s.cells.queue.head? = some c then
    let latched := s.setCell c { s.cell c with latch := .leak, valve := .vent, fillTime := Config.leakMs }
    ((((latched.unqueue c).post .fault).post .massage).reportBolster c .failed).settlePump false
  else s

/-- FAULT_CLEAR addressed to a cell: regulation resumes by R117 (R124). A cell with target 0 that is still at VENT above 2, or at HOLD
above 4 half-kPa after a sleep, vents, although R124 says that it stays at HOLD (log 52: the model's choice). -/
def State.clearCell (c : Fin 12) (s : State) : State :=
  if (s.cell c).latch = .none then s
  else (((s.setCell c { s.cell c with latch := .none, fillTime := 0 }).post .fault).post .massage).regulate c

/-- The pump current exceeds the trip level while the pump output is on (R122). -/
def State.pumpTrip (current : Nat) (s : State) : State :=
  if s.cells.pump = .running ∧ Config.pumpTrip < current then
    let failed := s.cells.queue.foldl (fun t c => t.reportBolster c .failed) s
    (failed.dropPump .tripped).post .fault
  else s

/-- FAULT_CLEAR addressed to the pump, with the pump current at that moment (R121, R122). -/
def State.clearPump (current : Nat) (s : State) : State × ReplyStatus :=
  if s.cells.pump ≠ .tripped then (s, .done)
  else if current < Config.pumpQuiet then (((s.setPump .idle).post .fault).settlePump false, .done)
  else (s, .busy)

/-- The run time reaches 120 s: a rest is due where no BRACE cell is queued (R121). -/
def State.pumpRestDue (s : State) : State :=
  if s.cells.pump = .running ∨ s.cells.pump = .waiting ∨ s.cells.pump = .paused then
    let counted : State := { s with cells.runTime := max s.cells.runTime Config.runLimitMs }
    if counted.restDue then counted.dropPump .resting else counted
  else s

/-- The pump has not been RUNNING for 30 s: its run time returns to 0 and a rest ends (R121). -/
def State.pumpRestEnd (s : State) : State :=
  if s.cells.pump = .running then s
  else
    let cooled : State := { s with cells.runTime := 0 }
    if s.cells.pump = .resting then
      if s.cells.queue.isEmpty then cooled.setPump .idle else cooled.requestPump
    else cooled

/-! ### Power states -/

/-- The fill queue is emptied at SHUTDOWN: every queued cell leaves with its valve at HOLD, and the pump is off (R134). -/
def State.emptyFillQueue (s : State) : State :=
  let cleared := s.cells.queue.foldl (fun t c => t.setCell c { t.cell c with fillTime := 0, valve := .hold }) s
  let emptied : State := { cleared with cells.queue := [] }
  match s.cells.pump with
  | .waiting | .running | .paused => emptied.dropPump .idle
  | .idle | .resting | .tripped => emptied

/-- The cells in ascending order. -/
def allCells : List (Fin 12) := List.finRange 12

/-- Every cell is judged again, when a brace ends a shutdown (R134). -/
def State.regulateAll (s : State) : State := allCells.foldl (fun t c => t.regulate c) s

/-- Entering SLEEP: every valve at HOLD, the pump off, its run time and any rest cleared (R134); a rest that ends so is a change of
pump state and posts the MASSAGE notice (R135). A latched cell that is still venting is held too, and stays so (R123, log 35: the
model's choice). -/
def State.cellsSleep (s : State) : State :=
  let asleep : PumpState := if s.cells.pump = .tripped then .tripped else .idle
  State.postIf (s.cells.pump != asleep) .massage { s with cells := { s.cells with
      cells := s.cells.cells.map fun x => { x with valve := .hold }
      runTime := 0
      offTime := 0
      pump := asleep } }

/-! ### The brace controller's requests -/

/-- Whether a cell's pressure lies within its band (R117). -/
def Cell.inBand (x : Cell) : Bool :=
  decide (x.target ≤ x.pressure + Config.hysteresis) && decide (x.pressure ≤ x.target + Config.hysteresis)

/-- A brace set of one bolster, with its first progress: HELD inside its new band, FILLING outside it, also where the lower target
takes a queued bolster from the queue (R126, R154 step 7, log 21). -/
def State.braceSetCell (c : Fin 12) (s : State) : State :=
  let x := { s.cell c with target := s.brace.bolsterPressure }
  let set := (s.setBolster c (if x.inBand then .held else .filling)).setTarget c x.target .brace
  if x.target + Config.hysteresis < x.pressure then set.setBolster c .filling else set

/-- The brace set of cells 10 and 11 (R126). -/
def State.braceSet (s : State) : State := (s.braceSetCell 10).braceSetCell 11

/-- The brace return of cells 10 and 11 with the targets given (R126). -/
def State.braceReturn (target10 target11 : Nat) (s : State) : State :=
  (s.supportSet 10 target10).supportSet 11 target11

end Sys2Proof.Machine
end

