-- ==== Sys2Proof/Machine/Massage.lean ====
section
/-! DEFINITION. The massage engine (chapter 7): pattern slots, the session, its steps and its halt. -/

namespace Sys2Proof.Machine

/-- A pattern slot. -/
def State.pattern (s : State) (p : Fin 8) : Pattern := s.massage.patterns[p]

/-- A pattern slot is replaced; a change of its state posts the MASSAGE notice (R135). -/
def State.setPattern (p : Fin 8) (x : Pattern) (s : State) : State :=
  State.postIf ((s.pattern p).state != x.state) .massage { s with massage.patterns := s.massage.patterns.set p x }

/-! ### Loading -/

/-- The gate of both parts of PATTERN_LOAD (R128). -/
def State.slotActive (s : State) (p : Fin 8) : Bool := s.massage.running && s.massage.active == some p

/-- A header part (R128). -/
def State.loadHeader (p : Fin 8) (period stepTime : Nat) (s : State) : State × ReplyStatus :=
  if s.slotActive p then (s, .refused)
  else (s.setPattern p ⟨.loading, period, stepTime, Vector.replicate 8 0⟩, .done)

/-- A mask part (R128). -/
def State.loadMask (p : Fin 8) (masks : Vector (BitVec 16) 8) (s : State) : State × ReplyStatus :=
  if s.slotActive p then (s, .refused)
  else if (s.pattern p).state ≠ .loading then (s, .refused)
  else (s.setPattern p { s.pattern p with state := .ready, masks := masks }, .done)

/-! ### Steps -/

/-- The massage cells in ascending order, as cells and as rows of a mask. -/
def massageCells : List (Fin 8) := List.finRange 8

/-- A massage cell among the twelve cells. -/
def massageCell (i : Fin 8) : Fin 12 := i.castLE (by decide)

/-- The intensity pressure of an intensity from 1 to 5 (R132). -/
def Massage.pressureOf (m : Massage) (intensity : Nat) : Nat := m.pressures.toList.getD (intensity - 1) 0

/-- The target of a massage cell at the step shown (R130). -/
def State.stepTarget (s : State) (p : Fin 8) (i : Fin 8) : Nat :=
  if (s.pattern p).masks[i].getLsbD s.massage.counter then s.massage.pressureOf (s.massage.intensity.getD 1) else 0

/-- The step shown is applied: a massage set to every cell of 0 to 7 without a latch, in ascending order (R130). -/
def State.applyStep (p : Fin 8) (s : State) : State :=
  massageCells.foldl
    (fun t i =>
      if (t.cell (massageCell i)).latch = .none then t.setTarget (massageCell i) (s.stepTarget p i) .massage else t) s

/-- The active slot is shown from step 0: the step is applied and its timer started (R129, R131). -/
def State.showStep (p : Fin 8) (s : State) : State :=
  State.applyStep p { s with massage.stepLeft := some ((s.pattern p).stepTime * 100) }

/-- Whether a start is taken (R129). -/
def State.startReply (s : State) (p : Fin 8) : ReplyStatus :=
  if s.power.state ≠ .awake then .refused
  else if s.brace.state ≠ .idle then .refused
  else if (s.pattern p).state ≠ .ready then .refused
  else .done

/-- A session starts, afresh where one is running (R129). -/
def State.beginSession (p : Fin 8) (intensity : Nat) (s : State) : State :=
  let m : Massage := { s.massage with
    running := true
    active := some p
    staged := none
    intensity := some intensity
    counter := 0
    sessionLeft := some (s.massage.sessionLength * 60000) }
  let begun := State.postIf (!s.massage.running || s.massage.active != some p || s.massage.staged.isSome) .massage
    { s with massage := m }
  let owned := massageCells.foldl
    (fun t i => State.postIf ((t.cell (massageCell i)).owner != .massage) .massage
      (t.setCell (massageCell i) { t.cell (massageCell i) with owner := .massage })) begun
  owned.showStep p

/-- MASSAGE_START with a slot and an intensity in range, and the starts a recall or a restore asks for (R129). -/
def State.startMassage (p : Fin 8) (intensity : Nat) (s : State) : State × ReplyStatus :=
  if s.startReply p = .done then (s.beginSession p intensity, .done) else (s, s.startReply p)

/-- The slot staged, where it is READY and so switched to at a wrap (R131). -/
def State.stagedReady (s : State) : Option (Fin 8) := s.massage.staged.filter fun q => (s.pattern q).state == .ready

/-- The step timer expires: the counter advances, a wrap judges the staging, and the step is applied (R130, R131). -/
def State.stepTimerExpiry (s : State) : State :=
  match s.massage.running, s.massage.active with
  | true, some p =>
    if s.massage.counter + 1 < (s.pattern p).period then
      State.showStep p { s with massage.counter := s.massage.counter + 1 }
    else match s.stagedReady with
      | some q =>
        State.showStep q (State.post .massage { s with massage := { s.massage with active := some q, staged := none, counter := 0 } })
      | none => State.showStep p { s with massage.counter := 0 }
  | _, _ => s

/-! ### Selecting and halting -/

/-- PATTERN_SELECT of a slot in range (R131). -/
def State.selectPattern (q : Fin 8) (s : State) : State × ReplyStatus :=
  if !s.massage.running then (s, .refused)
  else if (s.pattern q).state = .empty then (s, .refused)
  else
    let staged := if s.massage.active = some q then none else some q
    (State.postIf (s.massage.staged != staged) .massage { s with massage.staged := staged }, .done)

/-- A halt: the engine stops, records its cause and releases cells 0 to 7; an OFF engine is left as it is (R133). -/
def State.haltMassage (cause : LastStop) (s : State) : State :=
  if !s.massage.running then s
  else
    let m : Massage := { s.massage with
      running := false
      active := none
      staged := none
      intensity := none
      counter := 0
      stepLeft := none
      sessionLeft := none
      lastStop := cause }
    massageCells.foldl (fun t i => t.setTarget (massageCell i) 0 .none) (State.post .massage { s with massage := m })

/-- The session timer expires (R132). -/
def State.sessionExpiry (s : State) : State := s.haltMassage .expired

end Sys2Proof.Machine
end

