-- ==== Sys2Proof/Machine/Brace.lean ====
section
/-! DEFINITION. The brace controller (chapter 9): beginning a brace, its axes, the deadline, re-braces, releases, the restore
and the ends of a brace. Bolster progress stands in Machine/Cells.lean. -/

namespace Sys2Proof.Machine

/-! ### The record -/

/-- What the BRACE notice shows of the record, timers and snapshot left out (R170). -/
def Brace.shown (b : Brace) : Brace :=
  { b with deadlineLeft := none, holdLeft := none, snapshot := none, ackPulse := none }

/-- The brace record is replaced; a change of what the notice shows posts it (R170). -/
def State.setBrace (b : Brace) (s : State) : State :=
  State.postIf (b.shown != s.brace.shown) .brace { s with brace := b }

/-- The entry of a brace axis. -/
def State.braceAxis (s : State) (a : Fin 8) : Option BraceAxis := s.brace.axes.find? (·.axis == a)

/-- The entry of a brace axis is changed. -/
def State.onBraceAxis (a : Fin 8) (f : BraceAxis → BraceAxis) (s : State) : State :=
  s.setBrace { s.brace with axes := s.brace.axes.map fun x => if x.axis = a then f x else x }

/-- Whether a brace move is still to come or under way (R157). -/
def BraceProgress.open : BraceProgress → Bool
  | .waiting | .moving => true
  | .notMoved | .leftOutFaulted | .leftOutUnreferenced | .done _ => false

/-- Whether a restore progress counts as finished (R164). -/
def RestoreProgress.finished : RestoreProgress → Bool
  | .skipped | .done _ => true
  | .none | .deferred | .waiting | .moving => false

/-- Whether the brace is complete (R157). -/
def Brace.complete (b : Brace) : Bool := b.axes.all fun x => !x.progress.open

/-! ### Deciding the brace axes -/

/-- Where a brace axis is to go: its resolved target (R151), or for an unreferenced axis with a LOWER or UPPER target its
brace direction (R155). -/
def Axis.braceGoal (x : Axis) : Goal :=
  match x.cfg.braceTarget, x.referenced, x.limits with
  | .none, _, _ => .none
  | .lower, true, some (lo, _) => .target lo
  | .upper, true, some (_, hi) => .target hi
  | .lower, _, _ => .dir .minus
  | .upper, _, _ => .dir .plus
  | .absolute p, true, _ => .target (x.intoLimits p)
  | .absolute p, false, _ => .target p

/-- The progress that R155 decides for a brace axis; WAITING is to be claimed. -/
def Axis.braceDecision (x : Axis) : BraceProgress :=
  if x.activity = .faulted ∨ x.latch ≠ .none then .leftOutFaulted
  else match x.cfg.braceTarget, x.referenced, x.limits with
    | .absolute _, false, _ => .leftOutUnreferenced
    | .lower, true, some (lo, _) => if x.position ≤ lo then .notMoved else .waiting
    | .upper, true, some (_, hi) => if hi ≤ x.position then .notMoved else .waiting
    | _, _, _ => .waiting

/-- The kind of claim for a goal (R155). -/
def Goal.kind : Goal → MoveKind
  | .dir _ => .jog
  | .target _ | .none => .targeted

/-- Each brace axis is decided by R155, one still MOVING toward its brace target keeping its move, and the axes that wait are
claimed in ascending order (R154 step 4, R159 step 3). An entry of the late brace that is still queued when its axis is decided
NOT_MOVED stays queued (log 48: the model's choice); its start, result or withdrawal is taken as that of any brace entry. -/
def State.braceDecide (s : State) : State :=
  let decide (x : BraceAxis) : BraceAxis :=
    if x.progress = .moving then { x with restore := .none }
    else ⟨x.axis, (s.axis x.axis).braceGoal, (s.axis x.axis).braceDecision, .none⟩
  let axes := s.brace.axes.map decide
  (s.setBrace { s.brace with axes := axes }).call
    ((axes.filter (·.progress == .waiting)).map fun x => .braceClaim x.axis)

/-- The BRACE claim of one axis (R155): admitted or HELD it waits, on a FAULTED axis it is left out (R31). -/
def State.braceClaim (a : Fin 8) (s : State) : State :=
  match s.braceAxis a with
  | none => s
  | some x =>
    if x.progress = .waiting then
      let (claimed, answer) := s.claim ⟨a, .brace, x.goal.kind, x.goal, none⟩
      if answer = .refused then claimed.onBraceAxis a fun y => { y with progress := .leftOutFaulted } else claimed
    else s

/-! ### Beginning a brace -/

/-- The snapshot (R153). -/
def State.takeSnapshot (s : State) : Snapshot where
  positions := s.axes.map fun x => if x.cfg.braceTarget ≠ .none ∧ x.referenced then some x.position else none
  cellTargets := #v[(s.cell 8).target, (s.cell 9).target, (s.cell 10).target, (s.cell 11).target]
  massage := if s.massage.running then s.massage.active.map fun p => (p, s.massage.intensity.getD 1) else none

/-- The brace axes from the configuration, in ascending order; each waits for its decision (R154). -/
def State.listBraceAxes (s : State) : List BraceAxis :=
  (allAxes.filter fun a => (s.axis a).cfg.braceTarget != .none).map fun a => ⟨a, (s.axis a).braceGoal, .waiting, .none⟩

/-- The store window closes; a change posts the SWITCH notice (R110, R114). -/
def State.closeWindow (s : State) : State :=
  State.postIf s.switches.window.isSome .switch { s with switches.window := none }

/-- A brace begins (R154). The first act takes the snapshot, sets the record, starts the deadline and drives the ack line
(log 19); the requests to other blocks follow in the rule's order. -/
def State.braceEnter (src : BraceSource) (s : State) : State :=
  let b : Brace := { s.brace with
    state := .bracing
    source := some src
    late := false
    releasePending := false
    holdPending := false
    deadlineLeft := some s.brace.deadline
    holdLeft := none
    axes := s.listBraceAxes
    bolsterFail := false
    snapshot := some s.takeSnapshot
    ackPulse := if s.brace.ackMode = .pulse then some Config.ackPulseMs else s.brace.ackPulse }
  (s.setBrace b).closeWindow.call
    [.planAbort .brace, .release .plan (.preempt .brace), .release .link (.preempt .brace), .release .switch (.preempt .brace),
     .braceDecide, .braceRest, .braceCheck]

/-- Steps 5 to 7 of R154: the regime, the massage halt and the bolster set. -/
def State.braceRest (s : State) : State := (s.regimeOn.haltMassage .brace).braceSet

/-! ### Re-braces -/

/-- The source after a request from a source (R152). -/
def mergeSource (old : Option BraceSource) (src : BraceSource) : BraceSource :=
  match old with
  | none => src
  | some o => if o = src then o else .both

/-- A re-brace in RESTORING (R159): the restore moves are stopped in one act, and the axes are decided again. -/
def State.reBrace (s : State) : State :=
  let stops := s.brace.axes.filter fun x => x.restore == .waiting || x.restore == .moving
  let axes := s.brace.axes.map fun x =>
    if x.progress = .moving then { x with restore := .none } else { x with progress := .waiting, restore := .none }
  (s.setBrace { s.brace with
      state := .bracing, deadlineLeft := some s.brace.deadline, late := false, releasePending := false, axes := axes }).call
    [.ownerStop .brace (stops.map (·.axis)), .braceDecide, .braceCheck]

/-- A brace request taken in AWAKE (R150, R158). -/
def State.takeBraceRequest (src : BraceSource) (s : State) : State :=
  let merged := { s.brace with source := some (mergeSource s.brace.source src) }
  match s.brace.state with
  | .idle => s.braceEnter src
  | .bracing => s.setBrace { merged with releasePending := false }
  | .braced => s.setBrace { merged with holdLeft := some (s.brace.holdTime * 1000) }
  | .holding => s.setBrace merged
  | .restoring => (s.setBrace merged).reBrace

/-- A brace request (R150): in SHUTTING_DOWN it first returns the power state to AWAKE, and every cell is judged again
(R134, R190). -/
def State.braceRequest (src : BraceSource) (s : State) : State :=
  match s.power.state with
  | .awake => s.takeBraceRequest src
  | .shuttingDown =>
    (State.regulateAll { s with power.state := .awake, power.phase := .waiting }).takeBraceRequest src
  | .starting | .sleep => s

/-- The reply to the BRACE command (R150). -/
def State.braceReply (s : State) : ReplyStatus :=
  match s.brace.state with
  | .idle | .restoring => .accepted
  | .bracing | .braced | .holding => .done

/-! ### Starts, results and withdrawals -/

/-- A BRACE entry has started: the restore's where the axis waits for its restore, otherwise the brace's own, whatever the axis was
decided since (R155, R164, log 48). -/
def State.braceStarted (a : Fin 8) (s : State) : State :=
  s.onBraceAxis a fun x =>
    if x.progress ≠ .waiting ∧ x.restore = .waiting then { x with restore := .moving } else { x with progress := .moving }

/-- The result of a BRACE move: the brace's own makes the brace progress DONE, the restore's the restore progress; one of a move that
the brace controller has ended already has no further effect (R38, R156, R164). -/
def State.braceResult (a : Fin 8) (r : MoveResult) (s : State) : State :=
  s.onBraceAxis a fun x =>
    if x.progress = .moving then { x with progress := .done r }
    else if x.restore = .moving then { x with restore := .done r }
    else x

/-- The withdrawal of a BRACE entry is taken as a result (R156, R164). A brace entry replaced by the brace controller's own new brace
claim changes no progress, since that claim waits (log 30); one replaced by the restore claim of its axis is DONE. -/
def State.braceWithdrawn (a : Fin 8) (r : MoveResult) (s : State) : State :=
  s.onBraceAxis a fun x =>
    if r = .aborted .replaced then (if x.progress = .waiting then x else { x with progress := .done r })
    else if x.progress ≠ .waiting ∧ x.restore = .waiting then { x with restore := .done r }
    else { x with progress := .done r }

/-! ### BRACED, HOLDING and RESTORING -/

/-- Entering RESTORING (R164). -/
def State.enterRestoring (s : State) : State :=
  let kept (a : Fin 8) : Bool := s.brace.snapshot.any fun n => n.positions[a].isSome
  (s.setBrace { s.brace with
      state := .restoring, holdLeft := none, deadlineLeft := none
      axes := s.brace.axes.map fun x => { x with restore := if kept x.axis then .deferred else .skipped } }).call [.braceCheck]

/-- What follows BRACED, by the hold pending and release pending flags (R157). -/
def State.bracedNext (s : State) : State :=
  if s.brace.state ≠ .braced then s
  else if s.brace.holdPending then s.setBrace { s.brace with state := .holding }
  else if s.brace.releasePending then s.enterRestoring
  else s.setBrace { s.brace with holdLeft := some (s.brace.holdTime * 1000) }

/-- The deadline expires in BRACING (R157). An unreferenced axis whose claim is HELD, coasting still under an earlier brace's move, has
no entry for the owner stop to withdraw: it stays WAITING and is claimed again when it is free (log 57: the model's
choice). -/
def State.deadlineExpiry (s : State) : State :=
  if s.brace.state = .bracing ∧ s.brace.deadlineLeft.isSome then
    let stops := s.brace.axes.filter fun x => x.progress.open && !(s.axis x.axis).referenced
    (s.setBrace { s.brace with state := .braced, late := true, deadlineLeft := none }).call
      [.ownerStop .brace (stops.map (·.axis)), .bracedNext]
  else s

/-- An axis is claimed for its restore, or skipped (R164). -/
def State.claimRestore (a : Fin 8) (s : State) : State :=
  match s.brace.snapshot.bind fun n => n.positions[a] with
  | none => s
  | some p =>
    let axis := s.axis a
    if axis.activity = .faulted ∨ axis.latch ≠ .none ∨ !axis.referenced then
      s.onBraceAxis a fun y => { y with restore := .skipped }
    else
      let (claimed, answer) := (s.onBraceAxis a fun y => { y with restore := .waiting }).claim
        ⟨a, .brace, .targeted, .target (axis.intoLimits p), none⟩
      if answer = .refused then claimed.onBraceAxis a fun y => { y with restore := .skipped } else claimed

/-- The restore claim of one DEFERRED axis (R164). -/
def State.restoreClaim (a : Fin 8) (s : State) : State :=
  if (s.braceAxis a).any (·.restore == .deferred) then s.claimRestore a else s

/-- The claim unit reports that an axis is free: a claim answered HELD is made again, a brace claim (R155, R159) or a restore claim
(R30, log 39: the model's choice). -/
def State.braceFree (a : Fin 8) (s : State) : State :=
  match s.braceAxis a with
  | none => s
  | some x =>
    if (s.entryOf a).any (·.owner == .brace) then s
    else if x.progress = .waiting then s.call [.braceClaim a, .braceCheck]
    else if x.restore = .waiting then (s.call [.braceCheck]).claimRestore a
    else s

/-- The record as the brace state returns to IDLE, with how the brace ended (R152, R153). -/
def Brace.toIdle (e : BraceEnd) (b : Brace) : Brace :=
  { b with
    state := .idle, source := none, late := false, releasePending := false, holdPending := false
    deadlineLeft := none, holdLeft := none, axes := [], bolster10 := .none, bolster11 := .none, bolsterFail := false
    snapshot := none, lastEnd := some e }

/-- The brace return of the snapshot's bolster targets (R165 step 1). -/
def State.returnBolsters (s : State) : State :=
  match s.brace.snapshot with
  | some n => s.braceReturn n.cellTargets[2] n.cellTargets[3]
  | none => s

/-- The restore is finished and the brace ends (R165). Massage is resumed by the snapshot alone, also where it was started in a host
silence that still stands (R169, log 58: the model's choice). -/
def State.finishRestore (s : State) : State :=
  let massage := s.brace.snapshot.bind Snapshot.massage
  let returned := s.returnBolsters
  let idle := (returned.setBrace (returned.brace.toIdle (.restored false))).regimeOff
  match massage with
  | none => idle
  | some (p, intensity) =>
    let (started, reply) := idle.startMassage p intensity
    started.setBrace { started.brace with lastEnd := some (.restored (reply == .done)) }

/-- The brace controller judges completeness of the brace and of the restore (R157, R164, R165, log 20). -/
def State.braceCheck (s : State) : State :=
  match s.brace.state with
  | .bracing =>
    if s.brace.complete then
      (s.setBrace { s.brace with state := .braced, late := false, deadlineLeft := none }).call [.bracedNext]
    else s
  | .restoring =>
    if !s.brace.complete then s
    else
      let deferred := s.brace.axes.filter (·.restore == .deferred)
      if !deferred.isEmpty then s.call (deferred.map (fun x => .restoreClaim x.axis) ++ [.braceCheck])
      else if s.brace.axes.all fun x => x.restore.finished then s.finishRestore
      else s
  | .idle | .braced | .holding => s

/-! ### Ends by others, and the host's requests -/

/-- A switch press ends a restore (R166). -/
def State.endRestoreBySwitch (s : State) : State :=
  let returned := (s.release .brace (.preempt .switch)).returnBolsters
  (returned.setBrace (returned.brace.toIdle .switch)).regimeOff

/-- BRACE_RELEASE without the after-crash flag (R160). -/
def State.braceRelease (s : State) : State × ReplyStatus :=
  match s.brace.state with
  | .idle | .holding => (s, .refused)
  | .restoring => (s, .done)
  | .bracing =>
    if s.brace.lineActive || s.brace.holdPending then (s, .refused)
    else (s.setBrace { s.brace with releasePending := true }, .accepted)
  | .braced => if s.brace.lineActive then (s, .refused) else (s.enterRestoring, .accepted)

/-- BRACE_RELEASE with the after-crash flag (R161). -/
def State.releaseAfterCrash (s : State) : State × ReplyStatus :=
  if s.brace.state = .holding then
    let returned := (s.release .brace .owner).heatOff.braceReturn 0 0
    ((returned.setBrace (returned.brace.toIdle .afterCrash)).regimeOff, .done)
  else (s, .refused)

/-- BRACE_HOLD (R162). -/
def State.braceHold (s : State) : State × ReplyStatus :=
  match s.brace.state with
  | .idle => (s, .refused)
  | .bracing => (s.setBrace { s.brace with holdPending := true, releasePending := false }, .done)
  | .braced => (s.setBrace { s.brace with state := .holding, holdLeft := none }, .done)
  | .holding => (s, .done)
  | .restoring => ((s.setBrace { s.brace with holdPending := true }).reBrace, .accepted)

/-- The hold timer expires (R163). -/
def State.holdExpiry (s : State) : State :=
  if s.brace.state = .braced ∧ s.brace.holdLeft.isSome then
    if s.brace.lineActive then s.setBrace { s.brace with holdLeft := some (s.brace.holdTime * 1000) } else s.enterRestoring
  else s

/-- The brace-ack pulse ends (R168). -/
def State.ackPulseEnd (s : State) : State := s.setBrace { s.brace with ackPulse := none }

/-- The debounced level of the brace line (R150). -/
def State.setLine (active : Bool) (s : State) : State := s.setBrace { s.brace with lineActive := active }

end Sys2Proof.Machine
end

