-- ==== Sys2Proof/Machine/Plans.lean ====
section
/-! DEFINITION. The plan executor (chapter 4): the step table, the two plan slots, steps and their claims, results, the end
of a chain, aborts and cancel; with the division of a recall (05 R97). -/

namespace Sys2Proof.Machine

/-! ### Records -/

/-- The CURRENT plan is replaced. -/
def State.setCurrent (p : Option Plan) (s : State) : State := { s with plans.current := p }

/-- The CURRENT plan is changed, where there is one. -/
def State.onCurrent (f : Plan → Plan) (s : State) : State := { s with plans.current := s.plans.current.map f }

/-- Whether CURRENT holds a RUNNING plan. -/
def State.planRunning (s : State) : Bool := s.plans.current.any (·.state == .running)

/-- Two sets of partial reasons together. -/
def Partials.join (a b : Partials) : Partials :=
  ⟨a.clamped || b.clamped, a.unreferenced || b.unreferenced, a.profileAbsent || b.profileAbsent, a.missed || b.missed,
    a.patternNotReady || b.patternNotReady⟩

/-- Partial reasons are added to a plan. -/
def Plan.addPartials (ps : Partials) (p : Plan) : Plan := { p with partials := p.partials.join ps }

def Partials.ofClamped (b : Bool) : Partials := { Partials.empty with clamped := b }
def Partials.ofUnreferenced : Partials := { Partials.empty with unreferenced := true }
def Partials.ofProfileAbsent : Partials := { Partials.empty with profileAbsent := true }
def Partials.ofMissed : Partials := { Partials.empty with missed := true }

/-- An axis entry of the current step takes a standing. -/
def Plan.setStanding (a : Fin 8) (st : Standing) (p : Plan) : Plan :=
  { p with entries := p.entries.map fun e => if e.axis = a then { e with standing := st } else e }

/-- An axis joins the moves in flight. -/
def Plan.joinFlight (a : Fin 8) (p : Plan) : Plan :=
  if p.inFlight.contains a then p else { p with inFlight := p.inFlight ++ [a] }

/-- An axis leaves the moves in flight. -/
def Plan.leaveFlight (a : Fin 8) (p : Plan) : Plan := { p with inFlight := p.inFlight.filter (· != a) }

/-! ### Resolving a step -/

/-- The position a profile holds for an axis, where the slot is VALID (R67, R97). -/
def State.profilePosition (s : State) (slot : Fin 6) (a : Fin 8) : Option Nat :=
  if (s.profile slot).state = .valid then (s.profile slot).content.positions[a] else none

/-- The target an axis entry names, before the soft limits (R67 case 4); none where its profile field is absent. -/
def State.namedTarget (s : State) (t : AxisTarget) : Option Nat :=
  match t.mode with
  | .absolute p => some p
  | .relative d => some (clamp 0 Config.maxPosition ((s.axis t.axis).position + d).toNat)
  | .profile slot => s.profilePosition slot t.axis

/-- An axis entry is resolved: its entry and the partial reasons found, or none for a faulted axis (R67). -/
def State.resolve (s : State) (t : AxisTarget) : Option (StepEntry × Partials) :=
  let x := s.axis t.axis
  if x.activity = .faulted ∨ x.latch ≠ .none then none
  else if !x.referenced then some (⟨t.axis, none, .skipped⟩, .ofUnreferenced)
  else match s.namedTarget t with
    | none => some (⟨t.axis, none, .skipped⟩, .ofProfileAbsent)
    | some p =>
      let target := x.intoLimits p
      let there := x.activity = .idle ∧ distance x.position target ≤ x.cfg.tolerance
      some (⟨t.axis, some target, if there then .complete else .toClaim⟩, .ofClamped (target != p))

/-- The entries of a step are resolved in order, up to a faulted axis: the entries and partial reasons found, and whether an
axis was faulted (R67). -/
def State.resolveAll (s : State) : List AxisTarget → List StepEntry × Partials × Bool
  | [] => ([], .empty, false)
  | t :: rest =>
    match s.resolve t with
    | none => ([], .empty, true)
    | some (e, ps) =>
      let (es, qs, faulted) := s.resolveAll rest
      (e :: es, ps.join qs, faulted)

/-! ### Recall phases -/

/-- Whether a target lies on the clearance side of a position (R97). -/
def clearanceSide (a : Fin 8) (position target : Nat) : Bool :=
  match a with
  | 0 | 1 | 2 | 4 | 5 => decide (target < position)
  | 3 => decide (position < target)
  | 6 | 7 => false

/-- Whether an axis present in a profile goes to phase A (R97). -/
def State.inPhaseA (s : State) (a : Fin 8) (position : Nat) : Bool :=
  let x := s.axis a
  !x.referenced || x.latch != .none || clearanceSide a x.position (x.intoLimits position)

/-- The axes of phase A or phase B, in ascending order (R97). -/
def State.phaseAxes (s : State) (slot : Fin 6) (phaseA : Bool) : List (Fin 8) :=
  allAxes.filter fun a => (s.profilePosition slot a).any fun p => s.inPhaseA a p == phaseA

/-- The entries of a phase (R75, R98). -/
def phaseTargets (slot : Fin 6) (axes : List (Fin 8)) : List AxisTarget := axes.map fun a => ⟨a, .profile slot⟩

/-! ### Beginning a step -/

/-- The entries of a MOVE step are resolved and those that remain are to be claimed (R66 to R68). -/
def State.beginMove (targets : List AxisTarget) (grouped : Bool) (s : State) : State :=
  let (entries, found, faulted) := s.resolveAll targets
  let entered := s.onCurrent fun p => { p.addPartials found with entries := entries }
  if faulted then entered.call [.planAbort .axisFault]
  else
    let toClaim := (entries.filter (·.standing == .toClaim)).map (·.axis)
    entered.call ((if grouped then (if toClaim.isEmpty then [] else [.planClaimGroup]) else toClaim.map .planClaim) ++ [.planCheck])

/-- A step of the CURRENT plan begins (R66, R70, R75, R97). -/
def State.beginStep (step : StepRef) (s : State) : State :=
  match s.plans.current with
  | none => s
  | some p =>
    let entered := s.setCurrent (some { p with step := some step, steps := p.steps + 1, entries := [], pauseLeft := none })
    match step, p.kind with
    | .descriptor i, _ =>
      match s.plans.table[i] with
      | none => entered
      | some (.pause length _) => entered.onCurrent fun q => { q with pauseLeft := some (length * 10) }
      | some (.move targets group _ _) => entered.beginMove targets group
    | .phaseA, .recall slot =>
      if (s.profile slot).state = .valid then
        (entered.onCurrent fun q => { q with phaseB := s.phaseAxes slot false }).beginMove
          (phaseTargets slot (s.phaseAxes slot true)) false
      else (entered.onCurrent fun q => ({ q with phaseB := [] } : Plan).addPartials .ofProfileAbsent).beginMove [] false
    | .phaseB, .recall slot => entered.beginMove (phaseTargets slot p.phaseB) false
    | .phaseA, .chain _ | .phaseB, .chain _ => entered

/-- The plan in CURRENT begins its first step (R64 to R66). -/
def State.planBegin (s : State) : State :=
  match s.plans.current with
  | none => s
  | some p =>
    if p.state = .running ∧ p.step = none then
      match p.kind with
      | .chain start => s.beginStep (.descriptor start)
      | .recall _ => s.beginStep .phaseA
    else s

/-! ### Claims of a step -/

/-- The descriptor of the current step of a chain. -/
def State.stepDescriptor (s : State) (p : Plan) : Option Descriptor :=
  match p.step with
  | some (.descriptor i) => s.plans.table[i]
  | some .phaseA | some .phaseB | none => none

/-- Whether the current step is grouped (R68). -/
def State.stepGrouped (s : State) (p : Plan) : Bool :=
  match s.stepDescriptor p with
  | some (.move _ group _ _) => group
  | some (.pause _ _) | none => false

/-- Whether an entry waits to be claimed, for the first time or again. -/
def StepEntry.unclaimed (e : StepEntry) : Bool := e.standing == .toClaim || e.standing == .held

/-- An entry as its claim, first or renewed, finds the axis: skipped on an unreferenced axis, its target within the soft
limits as they stand (R68). -/
def State.refresh (s : State) (e : StepEntry) : StepEntry × Partials :=
  let x := s.axis e.axis
  if !x.referenced then ({ e with standing := .skipped }, .ofUnreferenced)
  else
    let target := e.target.map x.intoLimits
    ({ e with target := target }, .ofClamped (target != e.target))

/-- The queue entry a plan's claim asks for (R34, R68). -/
def StepEntry.claimOf (e : StepEntry) (group : Option Nat) : Entry :=
  ⟨e.axis, .plan, .targeted, .target (e.target.getD 0), group⟩

/-- The standing that an answer gives; an answer that refuses for any other reason than those of R68 leaves it. -/
def ClaimAnswer.standing (old : Standing) : ClaimAnswer → Standing
  | .admitted => .queued
  | .held => .held
  | .refused | .ignored => old

/-- An entry after its claim has been answered. -/
def Plan.answered (a : Fin 8) (answer : ClaimAnswer) (p : Plan) : Plan :=
  let stood := { p with entries := p.entries.map fun e =>
    if e.axis = a then { e with standing := answer.standing e.standing } else e }
  if answer = .admitted then stood.joinFlight a else stood

/-- Entries of the current step are replaced by those of the same axes. -/
def Plan.putEntry (e : StepEntry) (p : Plan) : Plan :=
  { p with entries := p.entries.map fun x => if x.axis = e.axis then e else x }

/-- One entry of an ungrouped step is claimed (R68). -/
def State.planClaim (a : Fin 8) (s : State) : State :=
  match s.plans.current with
  | none => s
  | some p =>
    match p.entries.find? fun e => e.axis == a && e.unclaimed with
    | none => s
    | some e =>
      if p.state ≠ .running then s
      else if (s.axis a).activity = .faulted then s.call [.planAbort .axisFault]
      else
        let (fresh, found) := s.refresh e
        let entered := s.onCurrent fun q => (q.addPartials found).putEntry fresh
        if fresh.standing = .skipped then entered
        else
          let (claimed, answer) := entered.claim (fresh.claimOf none)
          claimed.onCurrent (Plan.answered a answer)

/-- The entries of a grouped step are claimed together, a held group whole again (R68). -/
def State.planClaimGroup (s : State) : State :=
  match s.plans.current with
  | none => s
  | some p =>
    let es := p.entries.filter StepEntry.unclaimed
    if p.state ≠ .running ∨ es.isEmpty then s
    else if es.any fun e => (s.axis e.axis).activity == .faulted then s.call [.planAbort .axisFault]
    else
      let fresh := es.map s.refresh
      let entered := s.onCurrent fun q => fresh.foldl (fun r f => (r.addPartials f.2).putEntry f.1) q
      let members := (fresh.map (·.1)).filter fun e => e.standing != .skipped
      if members.isEmpty then entered
      else
        let (claimed, answer) := entered.claimGroup (members.map fun e => e.claimOf (some p.steps))
        claimed.onCurrent fun q => members.foldl (fun r e => r.answered e.axis answer) q

/-- The claim unit reports that an axis is free: a held entry is claimed again (R68). -/
def State.planFree (a : Fin 8) (s : State) : State :=
  match s.plans.current with
  | none => s
  | some p =>
    if p.state = .running ∧ p.entries.any (fun e => e.axis == a && e.standing == .held) then
      s.call [if s.stepGrouped p then .planClaimGroup else .planClaim a, .planCheck]
    else s

/-! ### Starts and results -/

/-- An entry of the plan has been started (R69). -/
def State.planStarted (a : Fin 8) (s : State) : State :=
  s.onCurrent fun p => if p.entries.any (fun e => e.axis == a && e.standing == .queued) then p.setStanding a .started else p

/-- The effect of a result or a withdrawal on a RUNNING plan (R71). -/
def State.takeResult (r : MoveResult) (s : State) : State :=
  match r with
  | .missed => s.onCurrent (Plan.addPartials .ofMissed)
  | .stalled | .tripped => s.call [.planAbort .axisFault]
  | .aborted why => s.call [.planAbort why]
  | .reached | .stopped | .endStop | .referenced _ | .referenceFailed => s

/-- A result of a PLAN move is passed to the plan executor (R65, R69, R71). -/
def State.planResult (a : Fin 8) (r : MoveResult) (s : State) : State :=
  match s.plans.current with
  | none => s
  | some p =>
    let left := s.onCurrent fun q =>
      let out := q.leaveFlight a
      if out.entries.any (fun e => e.axis == a && e.standing == .started) then out.setStanding a .settled else out
    if p.state = .running then left.takeResult r else left

/-- A withdrawal of a PLAN entry is reported (R65, R71). -/
def State.planWithdrawn (a : Fin 8) (r : MoveResult) (s : State) : State :=
  match s.plans.current with
  | none => s
  | some p =>
    let left := s.onCurrent (Plan.leaveFlight a)
    if p.state = .running then left.takeResult r else left

/-! ### The end of a step and of a plan -/

/-- Whether an entry lets its step finish (R69). -/
def Standing.done (wait : Bool) : Standing → Bool
  | .skipped | .complete | .settled => true
  | .started => !wait
  | .toClaim | .held | .queued => false

/-- Whether the current step is finished (R69, R70, R75). -/
def State.stepFinished (s : State) (p : Plan) : Bool :=
  match p.step with
  | none => false
  | some .phaseA | some .phaseB => p.entries.all fun e => e.standing.done true
  | some (.descriptor i) =>
    match s.plans.table[i] with
    | some (.move _ _ wait _) => p.entries.all fun e => e.standing.done wait
    | some (.pause _ _) => p.pauseLeft.isNone
    | none => false

/-- The next of a descriptor. -/
def Descriptor.next : Descriptor → Option (Fin 32)
  | .move _ _ _ n => n
  | .pause _ n => n

/-- An abort of the CURRENT plan for any reason but CANCEL (R76, R77). -/
def State.planAbort (why : Reason) (s : State) : State :=
  match s.plans.current with
  | none => s
  | some p =>
    let discard := if s.plans.next.isSome then some why else p.nextDiscard
    if p.state = .running then
      let ended := { p with state := .ending, outcome := some (.aborted why), pauseLeft := none, nextDiscard := discard }
      State.call [.release .plan (.preempt why), .planCheck]
        (State.post .plan { s with plans := { s.plans with current := some ended, next := none } })
    else
      State.postIf s.plans.next.isSome .plan
        { s with plans := { s.plans with current := some { p with nextDiscard := discard }, next := none } }

/-- The chain has no further step: the plan waits for its moves in flight (R72). -/
def State.planAtEnd (s : State) : State :=
  (s.onCurrent fun p => { p with atEnd := true }).call [.planCheck]

/-- A step is finished and the plan goes on (R72 to R75). -/
def State.planAdvance (p : Plan) (s : State) : State :=
  match p.step with
  | none => s
  | some .phaseA => s.beginStep .phaseB
  | some .phaseB => s.planAtEnd
  | some (.descriptor i) =>
    match s.plans.table[i].bind Descriptor.next with
    | none => s.planAtEnd
    | some n =>
      if Config.loopLimit ≤ p.steps then s.planAbort .loopLimit
      else if s.plans.table[n].isSome then s.beginStep (.descriptor n)
      else match p.policy with
        | .stopError => s.planAbort .brokenLink
        | .endQuiet => s.planAtEnd

/-- The last result of a plan that leaves CURRENT (R63). -/
def Plan.toLast (p : Plan) (o : PlanOutcome) : LastPlan :=
  ⟨p.kind, p.source, o, p.partials, p.steps, p.nextDiscard⟩

/-- Whether an end posts the PLAN notice (R65). -/
def Plan.endPosts (p : Plan) (o : PlanOutcome) : Bool :=
  match o with
  | .aborted _ => true
  | .completed | .partly => p.notify

/-- CURRENT is emptied with its result, and NEXT, where occupied, is promoted and begins (R65). -/
def State.leaveCurrent (p : Plan) (o : PlanOutcome) (s : State) : State :=
  let left := State.postIf (p.endPosts o) .plan { s with plans := { s.plans with last := some (p.toLast o), current := none } }
  match s.plans.next with
  | none => left
  | some q =>
    State.call [.planBegin]
      (State.post .plan { left with plans := { left.plans with current := some { q with state := .running }, next := none } })

/-- The outcome of a plan that has reached its end (R72). -/
def Plan.endOutcome (p : Plan) : PlanOutcome := if p.partials = .empty then .completed else .partly

/-- The plan executor judges whether CURRENT leaves, has reached its end, or goes on to its next step (R65, R69, R72). -/
def State.planCheck (s : State) : State :=
  match s.plans.current with
  | none => s
  | some p =>
    match p.state with
    | .waiting => s
    | .ending => if p.inFlight.isEmpty then s.leaveCurrent p (p.outcome.getD p.endOutcome) else s
    | .running =>
      if p.atEnd then (if p.inFlight.isEmpty then s.leaveCurrent p p.endOutcome else s)
      else if s.stepFinished p then s.planAdvance p
      else s

/-- The pause timer expires (R70). -/
def State.pauseExpiry (s : State) : State :=
  match s.plans.current with
  | none => s
  | some p =>
    if p.state = .running ∧ p.pauseLeft.isSome then
      (s.onCurrent fun q => { q with pauseLeft := none }).call [.planCheck]
    else s

/-! ### Accepting plans -/

/-- A new plan record in RUNNING (R63, R64). -/
def Plan.new (kind : PlanKind) (source : Source) (policy : Policy) (notify : Bool) (found : Partials) : Plan where
  kind := kind
  source := source
  policy := policy
  notify := notify
  state := .running
  step := none
  entries := []
  pauseLeft := none
  inFlight := []
  steps := 0
  partials := found
  outcome := none
  atEnd := false
  phaseB := []
  nextDiscard := none

/-- The plan slot a new plan would take (R64). -/
def State.planSlot (s : State) : Option PlanSlot :=
  if s.plans.current.isNone then some .current else if s.plans.next.isNone then some .next else none

/-- A plan is placed in the slot it takes; in CURRENT it begins (R64). -/
def State.placePlan (slot : PlanSlot) (p : Plan) (s : State) : State :=
  match slot with
  | .current => State.call [.planBegin] (State.post .plan (s.setCurrent (some p)))
  | .next => State.post .plan { s with plans.next := some { p with state := .waiting } }

/-- PLAN_RUN with values in range (R64): the reply, and the plan slot taken. -/
def State.runPlan (start : Fin 32) (policy : Policy) (notify : Bool) (s : State) : State × ReplyStatus × Option PlanSlot :=
  if s.power.state ≠ .awake then (s, .refused, none)
  else if s.brace.state ≠ .idle then (s, .refused, none)
  else if s.plans.vehicle = .moving then (s, .refused, none)
  else if s.plans.table[start].isNone then (s, .refused, none)
  else match s.planSlot with
    | none => (s, .busy, none)
    | some slot => (s.placePlan slot (.new (.chain start) .link policy notify .empty), .accepted, some slot)

/-- PLAN_LOAD with every descriptor in range (R62). -/
def State.loadDescriptors (ds : List (Fin 32 × Option Descriptor)) (s : State) : State × ReplyStatus :=
  if s.plans.current.isSome then (s, .busy)
  else ({ s with plans.table := ds.foldl (fun t d => t.set d.1 d.2) s.plans.table }, .done)

/-! ### Cancel and vehicle state -/

/-- NEXT is emptied where it is occupied, and the discard is kept for the last result (R78, log 28). -/
def State.emptyNext (why : Reason) (s : State) : State :=
  if s.plans.next.isNone then s
  else State.post .plan
    { s with plans := { s.plans with current := s.plans.current.map fun p => { p with nextDiscard := some why }, next := none } }

/-- A cancel of CURRENT: the plan ends ABORTED (CANCEL), and its claims are released with cause OWNER (R78). -/
def State.cancelCurrent (s : State) : State :=
  match s.plans.current with
  | none => s
  | some p =>
    if p.state = .running then
      State.call [.release .plan .owner, .planCheck]
        (State.post .plan
          (s.setCurrent (some { p with state := .ending, outcome := some (.aborted .cancel), pauseLeft := none })))
    else s

/-- VEHICLE: a change of the vehicle state; a change to MOVING ends the plan and empties NEXT (R79). -/
def State.setVehicle (v : Vehicle) (s : State) : State :=
  if s.plans.vehicle = v then s
  else
    let changed := State.post .plan { s with plans.vehicle := v }
    if v = .moving then changed.call [.planAbort .vehicleMoving] else changed

end Sys2Proof.Machine
end

