-- ==== Sys2Proof/Machine/Profiles.lean ====
section
/-! DEFINITION. The profile store (chapter 5): storing, writing, erasing, and the acceptance of a recall with its comfort
presets. -/

namespace Sys2Proof.Machine

/-- Whether a record has a present field (R82). -/
def ProfileContent.nonempty (c : ProfileContent) : Bool :=
  c.positions.toList.any Option.isSome || c.lumbar.isSome || c.heat.isSome || c.massage.isSome

/-- The presence set: axes 0 to 7, lumbar, heat, massage, and the spare position, always absent (R82). -/
def ProfileContent.presence (c : ProfileContent) : List Bool :=
  c.positions.toList.map Option.isSome ++ [c.lumbar.isSome, c.heat.isSome, c.massage.isSome, false]

/-- A capture mask without its spare position (R85). -/
structure CaptureMask where
  axes : Vector Bool 8
  lumbar : Bool
  heat : Bool
  massage : Bool
  deriving DecidableEq, Repr

/-- The fixed capture mask of a memory-button store (R87). -/
def CaptureMask.ofButton : CaptureMask := ⟨Vector.replicate 8 true, true, false, false⟩

/-- A zone's mode as a preset captures it (R86). -/
def ZoneMode.preset : ZoneMode → HeatPreset
  | .off => .off
  | .manual d => .manual d
  | .auto sp => .auto sp
  | .boost sp => .auto sp

/-- The record a store would make (R86). -/
def State.captured (s : State) (p : Fin 6) (m : CaptureMask) : ProfileContent :=
  let old := if (s.profile p).state = .valid then (s.profile p).content else .empty
  { positions := Vector.ofFn fun a =>
      if m.axes[a] then (if (s.axis a).referenced then some (s.axis a).position else none) else old.positions[a]
    lumbar := if m.lumbar then some (min (s.cell 8).target Config.maxLumbar, min (s.cell 9).target Config.maxLumbar) else old.lumbar
    heat := if m.heat then some (s.zones.map fun z => z.mode.preset) else old.heat
    massage :=
      if m.massage then (if s.massage.running then s.massage.active.map fun q => (q, s.massage.intensity.getD 1) else none)
      else old.massage }

/-- The last profile action of a store, a write or an erase (R101). -/
def ProfileAction.plain (kind : ProfileActionKind) (p : Fin 6) (source : Source) : ProfileAction :=
  ⟨kind, p, source, false, false, false, false⟩

/-- A slot's working copy is changed: it is no longer persisted and becomes write-pending (R83, R101). -/
def State.changeProfile (p : Fin 6) (st : ProfileState) (c : ProfileContent) (action : ProfileAction) (s : State) : State :=
  State.addProfileWrite p
    (State.post .profile { s with profiles := s.profiles.set p ⟨st, c, false⟩, lastProfile := some action })

/-- PROFILE_STORE of a slot under a mask that is not empty, and the store a memory button asks for (R85, R87). -/
def State.storeProfile (p : Fin 6) (m : CaptureMask) (source : Source) (s : State) : State × ReplyStatus :=
  if s.power.state ≠ .awake then (s, .refused)
  else if s.brace.state ≠ .idle then (s, .refused)
  else if s.anyMoving then (s, .busy)
  else if !(s.captured p m).nonempty then (s, .refused)
  else (s.changeProfile p .valid (s.captured p m) (.plain .store p source), .done)

/-- PROFILE_WRITE of a slot with a record in range (R88). -/
def State.writeProfile (p : Fin 6) (c : ProfileContent) (s : State) : State × ReplyStatus :=
  if s.power.state ≠ .awake then (s, .refused)
  else (s.changeProfile p .valid c (.plain .write p .link), .done)

/-- PROFILE_ERASE of a slot (R89). -/
def State.eraseProfile (p : Fin 6) (s : State) : State × ReplyStatus :=
  if s.power.state ≠ .awake then (s, .refused)
  else if (s.profile p).state = .empty ∧ (s.profile p).persisted then (s, .done)
  else (s.changeProfile p .empty .empty (.plain .erase p .link), .done)

/-! ### Recall -/

/-- The lumbar preset of a recall (R94). -/
def State.presetLumbar (l : Option (Nat × Nat)) (s : State) : State :=
  match l with
  | some (upper, lower) => (s.supportSet 8 upper).supportSet 9 lower
  | none => s

/-- A preset as a zone's mode (R95). -/
def HeatPreset.mode : HeatPreset → ZoneMode
  | .off => .off
  | .manual d => .manual d
  | .auto sp => .auto sp

/-- The heat preset of a recall (R95). -/
def State.presetHeat (h : Option (Vector HeatPreset 4)) (s : State) : State :=
  match h with
  | some v => allZones.foldl (fun t z => t.setMode z v[z].mode) s
  | none => s

/-- Whether a massage preset is found not READY (R96). -/
def State.patternNotReady (s : State) (m : Option (Fin 8 × Nat)) : Bool := m.any fun q => (s.pattern q.1).state != .ready

/-- The massage preset of a recall (R96). -/
def State.presetMassage (m : Option (Fin 8 × Nat)) (s : State) : State :=
  match m with
  | some (q, intensity) => if (s.pattern q).state = .ready then (s.startMassage q intensity).1 else s
  | none => s

/-- The outcomes of a recall's decision (R92, R93). -/
inductive RecallAnswer where
  | refused | vehicleMoving | profileEmpty | busy
  | accepted (slot : PlanSlot)
  deriving DecidableEq, Repr

/-- A recall is decided (R92, R93). -/
def State.decideRecall (s : State) (p : Fin 6) : RecallAnswer :=
  if s.power.state ≠ .awake then .refused
  else if s.brace.state ≠ .idle then .refused
  else if s.plans.vehicle = .moving then .vehicleMoving
  else if (s.profile p).state ≠ .valid then .profileEmpty
  else match s.planSlot with
    | none => .busy
    | some slot => .accepted slot

/-- An accepted recall: the presets are applied, and the plan is placed with the partial reason found (R92, R94 to R96, R101). -/
def State.acceptRecall (p : Fin 6) (source : Source) (slot : PlanSlot) (s : State) : State :=
  let c := (s.profile p).content
  let notReady := s.patternNotReady c.massage
  let action : ProfileAction :=
    ⟨.recall, p, source, c.lumbar.isSome, c.heat.isSome, c.massage.isSome && !notReady, notReady⟩
  let preset := ((s.presetLumbar c.lumbar).presetHeat c.heat).presetMassage c.massage
  State.placePlan slot (.new (.recall p) source .endQuiet true { Partials.empty with patternNotReady := notReady })
    (State.post .profile { preset with lastProfile := some action })

/-- RECALL of a slot, from the command or from a memory button (R92, R93). -/
def State.recall (p : Fin 6) (source : Source) (s : State) : State × RecallAnswer :=
  match s.decideRecall p with
  | .accepted slot => (s.acceptRecall p source slot, .accepted slot)
  | answer => (s, answer)

/-- The reply to the RECALL command (R92). -/
def RecallAnswer.reply : RecallAnswer → ReplyStatus
  | .refused | .vehicleMoving | .profileEmpty => .refused
  | .busy => .busy
  | .accepted _ => .accepted

end Sys2Proof.Machine
end

