-- ==== Sys2Proof/Machine/Switches.lean ====
section
/-! DEFINITION. The switch scanner (chapter 6): contacts and pairs, presses and releases, jogs, SET and the memory buttons. -/

namespace Sys2Proof.Machine

/-! ### Contacts and pairs -/

/-- The number of a contact: axis `a` has `2a` for + and `2a + 1` for −, SET is 16, M1 to M3 are 17 to 19. -/
def contactIndex : Contact → Fin 20
  | .axis a .plus => ⟨2 * a.val, by omega⟩
  | .axis a .minus => ⟨2 * a.val + 1, by omega⟩
  | .set => 16
  | .mem m => ⟨17 + m.val, by omega⟩

/-- The other direction. -/
def oppositeDir : Dir → Dir
  | .plus => .minus
  | .minus => .plus

/-- A contact record. -/
def State.contact (s : State) (c : Contact) : ContactRec := s.switches.contacts[contactIndex c]

/-- A contact record is replaced; a change posts the SWITCH notice (R114). -/
def State.setContact (c : Contact) (x : ContactRec) (s : State) : State :=
  State.postIf (s.contact c != x) .switch { s with switches.contacts := s.switches.contacts.set (contactIndex c) x }

/-- The input level of a contact before the scanner has begun, which posts nothing (R102). -/
def State.setInput (c : Contact) (pressed : Bool) (s : State) : State :=
  { s with switches.contacts := upd s.switches.contacts (contactIndex c) fun x => { x with pressed := pressed } }

/-- An axis-pair record. -/
def State.pair (s : State) (a : Fin 8) : PairRec := s.switches.pairs[a]

/-- The jog standing of a pair is set. -/
def State.setJog (a : Fin 8) (j : JogStanding) (s : State) : State :=
  { s with switches.pairs := upd s.switches.pairs a fun p => { p with jog := j } }

/-- The opposed flag of a pair is set; a change posts the SWITCH notice (R114). -/
def State.setOpposed (a : Fin 8) (b : Bool) (s : State) : State :=
  State.postIf ((s.pair a).opposed != b) .switch { s with switches.pairs := upd s.switches.pairs a fun p => { p with opposed := b } }

/-- A contact becomes inert (R102). -/
def State.makeInert (c : Contact) (s : State) : State := s.setContact c { s.contact c with inert := true }

/-- The last memory action is set (R114). -/
def State.setMemory (m : MemoryAction) (s : State) : State :=
  State.postIf (s.switches.lastAction != m) .switch { s with switches.lastAction := m }

/-! ### Opposed pairs -/

/-- A pair becomes opposed: an admitted jog gets an owner stop, and the jog standing becomes NONE (R108). -/
def State.oppose (a : Fin 8) (s : State) : State :=
  let opposed := (s.setOpposed a true).setJog a .none
  match (s.pair a).jog with
  | .admitted _ => opposed.call [.ownerStop .switch [a]]
  | .held _ | .none => opposed

/-- A pair stops being opposed when both its contacts are RELEASED (R108). -/
def State.unoppose (a : Fin 8) (s : State) : State :=
  if (s.contact (.axis a .plus)).pressed || (s.contact (.axis a .minus)).pressed then s else s.setOpposed a false

/-! ### Claims and their ends -/

/-- The SWITCH claim of a contact, and what its answer makes of the pair and the contact (R105, R107). -/
def State.switchClaim (a : Fin 8) (d : Dir) (s : State) : State :=
  let (claimed, answer) := s.claim ⟨a, .switch, .jog, .dir d, none⟩
  match answer with
  | .admitted => claimed.setJog a (.admitted d)
  | .held => claimed.setJog a (.held d)
  | .refused | .ignored => (claimed.setJog a .none).makeInert (.axis a d)

/-- Whether a press would be taken now (R103). -/
def State.takesPress (s : State) : Bool :=
  s.power.state == .awake && (s.brace.state == .idle || s.brace.state == .restoring)

/-- The end of a jog reaches the scanner: a contact still held for it becomes inert (R106, log 17). -/
def State.switchResult (a : Fin 8) (d : Option Dir) (s : State) : State :=
  match d with
  | none => s
  | some d =>
    if (s.pair a).jog = .admitted d ∧ (s.contact (.axis a d)).pressed ∧ !(s.pair a).opposed then
      (s.setJog a .none).makeInert (.axis a d)
    else s

/-- The claim unit reports that an axis is free: a HELD jog is claimed again under the gates of a press (R107, log 29). -/
def State.switchFree (a : Fin 8) (s : State) : State :=
  match (s.pair a).jog with
  | .held d =>
    let c := s.contact (.axis a d)
    if c.pressed && !c.inert && !(s.pair a).opposed then
      if !s.takesPress then (s.setJog a .none).makeInert (.axis a d)
      else
        let claiming := s.call [.switchClaim a d]
        if s.brace.state = .restoring then claiming.endRestoreBySwitch else claiming
    else s
  | .admitted _ | .none => s

/-! ### Memory buttons -/

/-- The profile slot of a memory button (R111). -/
def buttonSlot (m : Fin 3) : Fin 6 := m.castLE (by decide)

/-- The memory action that a recall's outcome gives (R111). -/
def RecallAnswer.action (m : Fin 3) : RecallAnswer → MemoryAction
  | .accepted slot => .recall m slot
  | .vehicleMoving => .recallRefused m .vehicleMoving
  | .busy => .recallRefused m .slotsFull
  | .refused | .profileEmpty => .recallRefused m .profileEmpty

/-- A taken press of a memory button, after its abort (R111). -/
def State.memoryAct (m : Fin 3) (foundRunning : Bool) (s : State) : State :=
  if s.switches.window.isSome then
    let (stored, reply) := s.closeWindow.storeProfile (buttonSlot m) .ofButton .switch
    stored.setMemory (if reply = .done then .stored m else .storeRefused m)
  else if foundRunning then s.setMemory (.abort m)
  else
    let (recalled, answer) := s.recall (buttonSlot m) .switch
    recalled.setMemory (answer.action m)

/-! ### Presses -/

/-- A taken press of an axis contact, after its abort: it opposes the pair, or claims, or, on a pair that is opposed still, asks for
nothing (R105, R108). -/
def State.axisAct (a : Fin 8) (d : Dir) (s : State) : State :=
  if (s.contact (.axis a (oppositeDir d))).pressed then s.oppose a
  else if (s.pair a).opposed then s
  else s.switchClaim a d

/-- A taken press of SET opens the store window (R110). -/
def State.setAct (s : State) : State := State.post .switch { s with switches.window := some Config.windowMs }

/-- A taken press asks for what its contact means, after its abort (R104, R105, R110, R111). -/
def State.pressAct (c : Contact) (foundRunning : Bool) (s : State) : State :=
  match c with
  | .axis a d => s.axisAct a d
  | .set => s.setAct
  | .mem m => s.memoryAct m foundRunning

/-- An ignored press: the contact is inert, and a pair whose other contact is PRESSED is opposed (R103, R108). -/
def State.pressIgnored (c : Contact) (s : State) : State :=
  let inert := s.makeInert c
  match c with
  | .axis a d => if (inert.contact (.axis a (oppositeDir d))).pressed then inert.oppose a else inert
  | .set | .mem _ => inert

/-- A press is taken or ignored (R103, R104). In RESTORING the restore is ended first, with everything that brings with it. -/
def State.pressTaken (c : Contact) (s : State) : State :=
  if !s.takesPress then s.pressIgnored c
  else if s.brace.state = .restoring then (s.call [.pressTaken c]).endRestoreBySwitch
  else s.call [.planAbort .switch, .pressAct c s.planRunning]

/-- The debounced press of a contact: its level, and in AWAKE and SHUTTING_DOWN the judgement of the press; in SLEEP it is a
waking press (R102, R103, R113, R191). -/
def State.press (c : Contact) (s : State) : State :=
  if (s.contact c).pressed then s
  else if s.power.held then s.setInput c true
  else match s.power.state with
    | .starting => s.setInput c true
    | .sleep =>
      let woken : State := { s with
        switches.waking := s.switches.waking ++ [c]
        power.wakeSource := some (s.power.wakeSource.getD .switch) }
      woken.setContact c { woken.contact c with pressed := true }
    | .awake | .shuttingDown => (s.setContact c { s.contact c with pressed := true }).call [.pressTaken c]

/-! ### Releases -/

/-- What the release of a contact asks for, once its level is RELEASED (R106, R108). -/
def State.releaseAct (c : Contact) (s : State) : State :=
  match c with
  | .axis a d =>
    if (s.pair a).opposed then s.unoppose a
    else if (s.pair a).jog = .admitted d then (s.setJog a .none).call [.ownerStop .switch [a]]
    else if (s.pair a).jog = .held d then s.setJog a .none
    else s
  | .set | .mem _ => s

/-- The debounced release of a contact (R106, R113). In SLEEP it is recorded only; one of a waking press acts when that press
has been taken (log 18). -/
def State.releaseContact (c : Contact) (s : State) : State :=
  if !(s.contact c).pressed then s
  else if s.power.held then s.setInput c false
  else match s.power.state with
    | .starting => s.setInput c false
    | .sleep =>
      let released := s.setContact c ⟨false, false⟩
      match c with
      | .axis a _ => released.unoppose a
      | .set | .mem _ => released
    | .awake | .shuttingDown => (s.setContact c ⟨false, false⟩).releaseAct c

/-- The store window's 5 s run out (R110). -/
def State.windowExpiry (s : State) : State := s.closeWindow

/-! ### Power states -/

/-- The scanner begins: the levels are taken as they stand (R102). Held contacts that become inert and pairs found opposed are its
first records and post no SWITCH notice (R114, log 45: the model's choice). -/
def State.beginScan (s : State) : State :=
  let contacts := s.switches.contacts.map fun x => { x with inert := x.pressed }
  { s with switches := {
      contacts := contacts
      pairs := Vector.ofFn fun a =>
        ⟨contacts[contactIndex (.axis a .plus)].pressed && contacts[contactIndex (.axis a .minus)].pressed, .none⟩
      window := none
      lastAction := .none
      waking := [] } }

/-- The waking presses are taken in the order in which they were detected, each with its release where that has come already
(R113, log 18). Whether such a press opposes its pair is judged here, by the contacts as they stand at the wake, and not when the press
was made in SLEEP (R108, log 18: the model's choice). -/
def State.takeWakingPresses (s : State) : State :=
  State.call (s.switches.waking.flatMap fun c =>
      .pressTaken c :: (if (s.contact c).pressed then [] else [.releaseAct c]))
    { s with switches.waking := [] }

end Sys2Proof.Machine
end

