-- ==== Sys2Proof/Machine/Power.lean ====
section
/-! DEFINITION. Power control (chapter 11): reset and STARTING, shutdown, SLEEP and wake; and the silence timer's start
(10 R180). -/

namespace Sys2Proof.Machine

/-! ### The silence timer -/

/-- The silence timer starts with the silence time; with the silence time 0 it is stopped, and outside AWAKE and SHUTTING_DOWN
it does not run (R180). -/
def State.startSilence (s : State) : State :=
  if s.power.state = .awake ∨ s.power.state = .shuttingDown then
    { s with link.silenceLeft := if s.link.silenceTime = 0 then none else some (s.link.silenceTime * 1000) }
  else s

/-! ### Reset -/

/-- A reset (R189): every block takes its values after reset. What stays is the surroundings' own (contact levels, pressures,
temperatures, the levels of the receive line and the RESET pin, what is sensed, the commands waiting) and the retained
record areas, the one being written torn (R187, log 24). While the RESET pin holds the part the valve records stand at VENT, as after
any reset (R115, R189, log 50), and the cause of the last entry to AWAKE is the reset's own from the reset on (R192, log 51): both
are the model's choice. -/
def State.takeReset (cause : ResetCause) (held : Bool) (s : State) : State :=
  { State.reset with
    store := { State.reset.store with
      profileAreas := s.store.torn.profileAreas, parkingArea := s.store.torn.parkingArea }
    switches := { State.reset.switches with contacts := s.switches.contacts.map fun x => ⟨x.pressed, false⟩ }
    cells := { State.reset.cells with
      cells := Vector.ofFn fun c => { State.reset.cells.cells[c] with pressure := s.cells.cells[c].pressure } }
    zones := Vector.ofFn fun z => { State.reset.zones[z] with temperature := s.zones[z].temperature }
    link := { State.reset.link with lineLow := s.link.lineLow }
    power := { State.reset.power with resetCause := cause, awakeCause := .reset cause, held := held }
    sense := s.sense
    pending := s.pending }

/-- A profile as its retained image gives it (R84, R186). -/
def Profile.ofArea : Area ProfileContent → Profile
  | .blank => ⟨.empty, .empty, true⟩
  | .good c => if c.nonempty then ⟨.valid, c, true⟩ else ⟨.empty, .empty, true⟩
  | .otherFormat | .torn => ⟨.corrupt, .empty, false⟩

/-- The parking record read, where it is valid (R24, R186). -/
def validParking : Area ParkingRecord → Option ParkingRecord
  | .good r => if r.valid then some r else none
  | .blank | .otherFormat | .torn => none

/-- An axis comes up as the parking record gives it (R24). -/
def Axis.fromParking (p : ParkedAxis) (x : Axis) : Axis :=
  { x with referenced := p.referenced, position := p.position, travel := p.travel }

/-- The axes after the reading of STARTING; without a valid parking record each is unreferenced at position 0 (R24). -/
def State.readAxes (s : State) : Vector Axis 8 :=
  let r := (validParking s.store.parkingArea).getD .cleared
  Vector.ofFn fun a => (s.axes[a]).fromParking r.axes[a]

/-- The retained records have been read: profiles, axes and the parking standing are filled from them (R24, R84, R186, R188,
R192). -/
def State.readRecords (s : State) : State :=
  let profiles := s.store.profileAreas.map Profile.ofArea
  let valid := (validParking s.store.parkingArea).isSome
  { s with
    axes := s.readAxes
    profiles := profiles
    power := { s.power with
      parkingWasValid := valid
      corruptSlots := (profiles.toList.filter fun p => p.state == .corrupt).length
      standing := if valid then .valid else .invalid } }

/-- The first PWM period of every zone starts (R142). -/
def State.startPeriods (s : State) : State :=
  { s with zones := s.zones.map fun z => { z with periodTime := some 0 } }

/-- STARTING ends (R189, R192). The filling of axis records from the parking record posts no AXIS notice (R25, log 36: the model's
choice). -/
def State.startingEnd (s : State) : State :=
  if s.power.held ∨ s.power.state ≠ .starting then s
  else
    let read := s.readRecords
    let awake : State := { read with power.state := .awake, power.awakeCause := .reset s.power.resetCause }
    let begun := (((awake.beginScan.recompute.startPeriods.startSilence).post .ready).post .profile)
    if s.brace.lineActive then begun.call [.braceRequest .line] else begun

/-! ### Shutdown -/

/-- SHUTDOWN (R190): the entry to SHUTTING_DOWN first ends the plan and releases the claims (R43). -/
def State.shutdown (s : State) : State × ReplyStatus :=
  match s.power.state with
  | .awake =>
    if s.brace.state ≠ .idle then (s, .refused)
    else
      (State.call [.planAbort .shutdown, .release .plan (.preempt .shutdown), .release .link .owner, .release .switch .owner,
          .shutdownRest]
        { s with power.state := .shuttingDown, power.phase := .waiting }, .accepted)
  | .shuttingDown => (s, .done)
  | .starting | .sleep => (s, .refused)

/-- The rest of the entry to SHUTTING_DOWN (R110, R134, R148, R190). -/
def State.shutdownRest (s : State) : State :=
  ((s.heatOff.haltMassage .shutdown).emptyFillQueue).closeWindow

/-- Whether every axis is at rest. -/
def State.axesAtRest (s : State) : Bool := s.axes.toList.all fun x => x.activity == .idle || x.activity == .faulted

/-- Whether the write-pending set is empty and no write is in progress (R190). -/
def State.writesDrained (s : State) : Bool :=
  s.store.job.isNone && !s.store.pendingParking && s.store.lowestPending.isNone

/-- Whether a reply frame is owed or being sent (R190). -/
def State.replyOpen (s : State) : Bool :=
  !s.link.owed.isEmpty || match s.link.sending with
    | some (.reply _ _ _ _ _) => true
    | some (.notice _ _) | none => false

/-- SLEEP is entered (R190, R191). A notice being sent is cut off and its kind stays pending (log 23). The brace-ack line is
inactive in SLEEP (R168): a pulse under way ends there and is not taken up again (log 41). -/
def State.enterSleep (s : State) : State :=
  let cut := match s.link.sending with
    | some (.notice k _) => s.post k
    | some (.reply _ _ _ _ _) | none => s
  let held := cut.cellsSleep
  let asleep : State := { held with
    gov.pumpGrant := 0
    brace.ackPulse := none
    power := { cut.power with state := .sleep, phase := .waiting, wakeSource := none, activationHeld := false }
    link := { held.link with receiver := .hunting, gap := 0, sending := none, silenceLeft := none, discarding := false } }
  State.recompute { asleep with zones := asleep.zones.map fun z => { z with periodTime := none } }

/-- Power control's part of a shutdown: the parking write once everything is at rest, and SLEEP once it has ended and no reply is
owed (R190, log 6). -/
def State.powerCheck (s : State) : State :=
  if s.power.held ∨ s.power.state ≠ .shuttingDown then s
  else match s.power.phase with
    | .waiting =>
      if s.axesAtRest && s.writesDrained then
        State.addParkingWrite s.parkingRecord { s with power.phase := .writing }
      else s
    | .writing => s
    | .written => if s.replyOpen then s else s.enterSleep

/-! ### Wake -/

/-- A wake source in SLEEP; a further one adds nothing (R191). -/
def State.wakeBy (w : WakeSource) (s : State) : State :=
  { s with power.wakeSource := some (s.power.wakeSource.getD w) }

/-- The part wakes (R191): waking presses are taken, then a line activation. -/
def State.wakeUp (s : State) : State :=
  match s.power.held, s.power.state, s.power.wakeSource with
  | false, .sleep, some w =>
    let awake : State := { s with
      power := { s.power with state := .awake, awakeCause := .woken w, wakeSource := none, activationHeld := false }
      cells := { s.cells with runTime := 0 }
      link := { s.link with discarding := w == .link } }
    let begun := ((awake.startSilence.startPeriods.recompute).post .ready)
    (if s.power.activationHeld then begun.call [.braceRequest .line] else begun).takeWakingPresses
  | _, _, _ => s

/-! ### The brace line -/

/-- The brace line becomes ACTIVE (R150): an activation is taken as a request in AWAKE and SHUTTING_DOWN, wakes the part in SLEEP,
and in STARTING only sets the level. -/
def State.lineActivation (s : State) : State :=
  if s.power.held ∨ s.brace.lineActive then s
  else
    let active := s.setLine true
    match s.power.state with
    | .starting => active
    | .sleep => State.wakeBy .braceLine { active with power.activationHeld := true }
    | .awake | .shuttingDown => active.call [.braceRequest .line]

/-- The brace line becomes INACTIVE (R150). -/
def State.lineInactive (s : State) : State := if s.power.held then s else s.setLine false

end Sys2Proof.Machine
end

