-- ==== Sys2Proof/Machine/Flags.lean ====
section
/-! DEFINITION. The fault set and what notices and status replies carry, gathered from the blocks (R25, R44, R60, R81, R101,
R114, R135, R149, R170, R181, R182, R192). -/

namespace Sys2Proof.Machine

/-- The fault set, read from the latches themselves, and the two condition flags (R181). -/
def State.faultSet (s : State) : FaultSet where
  axes := s.axes.map (·.latch)
  cells := s.cells.cells.map (·.latch)
  pump := s.pumpLatched
  zones := s.zones.map (·.latch)
  supplyLow := s.gov.supply == .low
  hostSilent := s.link.hostSilent

/-- An axis as the AXIS notice and STATUS AXES carry it (R25). -/
def State.axisView (s : State) (a : Fin 8) : AxisView :=
  let x := s.axis a
  ⟨x.activity, x.position, x.referenced, x.travel, x.limits, x.latch, x.stallCount, x.lastResult, s.owner a⟩

/-- The AXIS notice (R25). -/
def State.axisViews (s : State) : Vector AxisView 8 := Vector.ofFn s.axisView

/-- A start-queue entry as STATUS AXES carries it (R44). -/
def Entry.view (e : Entry) : EntryView := ⟨e.axis, e.owner, e.kind, e.goal, e.group.isSome⟩

/-- A plan as the PLAN notice carries it (R81). -/
def Plan.view (p : Plan) : PlanView :=
  ⟨p.kind, p.source, p.state, p.step, p.steps, p.partials, if p.state = .ending then p.outcome else none⟩

/-- The PLAN notice (R81). -/
def State.plansView (s : State) : PlansView :=
  ⟨s.plans.vehicle, s.plans.current.map Plan.view, s.plans.next.map Plan.view, s.plans.last⟩

/-- The current step's entries in STATUS PLANS, for a RUNNING plan (R81). -/
def State.stepView (s : State) : List StepEntry :=
  match s.plans.current with
  | some p => if p.state = .running then p.entries else []
  | none => []

/-- The BRACE notice (R170). -/
def State.braceView (s : State) : BraceView :=
  let b := s.brace
  ⟨b.state, b.source, b.late, b.releasePending, b.holdPending, b.axes, b.bolster10, b.bolster11, b.bolsterFail, b.lineActive,
    s.ackLine, b.lastEnd⟩

/-- The SUPPLY notice (R60). -/
def State.supplyView (s : State) : SupplyView :=
  ⟨s.gov.supply, s.gov.limit, s.grantedSum, s.motorUnits, s.gov.pumpGrant, s.zones.map (·.ceiling), Vector.ofFn s.heaterUnits,
    s.pumpRequest == .paused, s.gov.regime⟩

/-- A profile slot in the PROFILE notice (R101). -/
def State.profileView (s : State) (p : Fin 6) : ProfileView :=
  let x := s.profile p
  ⟨x.state, x.content.presence, x.persisted, s.profilePending p || s.profileWriting p⟩

/-- A time left in whole units of the length given, both in ms; which way a time between two units goes is the free value
`Config.unitRoundsUp` (R114, R135, log 34). -/
def unitsLeft (unit time : Nat) : Nat :=
  if time % unit != 0 && Config.unitRoundsUp unit time then time / unit + 1 else time / unit

/-- The engine fields of the MASSAGE notice, with the session time left in seconds (R135). -/
def State.engineView (s : State) : EngineView :=
  let m := s.massage
  ⟨m.running, m.active, m.staged, m.intensity, m.counter, m.sessionLeft.map (unitsLeft 1000), m.lastStop⟩

/-- A cell in the MASSAGE notice (R135). -/
def Cell.view (x : Cell) : CellView := ⟨x.owner, x.target, x.pressure, x.valve, x.latch⟩

/-- A zone in the HEAT notice (R149). -/
def Zone.view (z : Zone) : ZoneView := ⟨z.mode, z.applied, z.ceiling, z.temperature, z.latch⟩

/-- A zone in STATUS HEAT (R149). -/
def State.zoneStatus (s : State) (z : Fin 4) : ZoneStatus :=
  let x := s.zone z
  ⟨x.view, x.maxDuty, x.demand, x.boostLeft, s.heaterUnits z, x.outputOn, x.periodTime⟩

/-- The content of a notice, gathered when its frame begins (R176). -/
def State.noticeContent (s : State) : NoticeKind → Content
  | .ready => .ready s.power.state s.power.awakeCause s.power.parkingWasValid s.power.standing s.power.corruptSlots
  | .brace => .brace s.braceView
  | .fault => .fault s.faultSet
  | .supply => .supply s.supplyView
  | .plan => .plan s.plansView
  | .axis => .axis s.axisViews
  | .profile => .profile (Vector.ofFn s.profileView) s.lastProfile
  | .massage =>
    .massage s.engineView (s.massage.patterns.map (·.state)) (s.cells.cells.map Cell.view) s.cells.queue s.cells.pump s.pumpLatched
  | .heat => .heat (s.zones.map Zone.view)
  | .switch =>
    .switch s.switches.contacts s.switches.pairs (s.switches.window.map (unitsLeft 100)) s.switches.lastAction

/-- The selectors of STATUS (R182). -/
inductive Selector where
  | axes | plans | cells | patterns | heat | brace | supply | faults
  deriving DecidableEq, Repr

/-- The payload of STATUS: a selector (R182, R185). -/
def readSelector : List Byte → Option Selector
  | [b] =>
    match b.toNat with
    | 1 => some .axes | 2 => some .plans | 3 => some .cells | 4 => some .patterns
    | 5 => some .heat | 6 => some .brace | 7 => some .supply | 8 => some .faults
    | _ => none
  | _ => none

/-- The data of a STATUS reply as the state has them (R182). -/
def State.statusContent (s : State) : Selector → Content
  | .axes => .statusAxes s.axisViews s.claims.slots (s.claims.queue.map Entry.view)
  | .plans =>
    .statusPlans s.plansView s.stepView (s.plans.current.bind (·.pauseLeft)) (s.plans.table.map Option.isSome)
  | .cells =>
    .statusCells s.cells.cells s.cells.queue s.cells.pump s.cells.runTime
      (if s.cells.pump = .resting then some (Config.restMs - s.cells.offTime) else none) s.pumpLatched s.sense.pumpCurrent
  | .patterns => .statusPatterns s.massage.patterns s.engineView
  | .heat => .statusHeat (Vector.ofFn s.zoneStatus)
  | .brace =>
    .statusBrace s.braceView s.brace.deadlineLeft s.brace.holdLeft s.brace.snapshot (s.axes.map (·.cfg.braceTarget))
      s.brace.deadline s.brace.holdTime s.brace.bolsterPressure s.brace.ackMode
  | .supply =>
    .statusSupply (Vector.ofFn s.axisGrant) s.pumpRequest s.gov.pumpGrant (Vector.ofFn s.heaterUnits) (s.zones.map (·.ceiling))
      s.gov.supply s.gov.limit s.grantedSum s.freeUnits s.gov.regime s.sense.supply
  | .faults => .statusFaults s.faultSet s.power.state s.link.silenceLeft

/-- IDENTIFY's data: the part name as four characters, the hardware issue number and the record format number (R182). -/
def identity : Content :=
  .identity [0x53, 0x51, 0x32, 0x38] Config.hardwareIssue Config.recordFormat

end Sys2Proof.Machine
end

