-- ==== Sys2Proof/Machine/Link.lean ====
section
/-! DEFINITION. The seat link (chapter 10): the receiver, judging frames, the command slot, replies owed, the transmitter, breaks
and host silence; and the bytes of the frames sent. -/

namespace Sys2Proof

/-- The bytes of a content whose layout the spec does not give: a free value (log 11). -/
opaque Config.contentBytes : Machine.Content → List Byte

namespace Machine

/-! ### Check value and frame bytes -/

/-- One bit of the check value: a shift, and the polynomial 0x1021 where the bit shifted out is set (R185). -/
def crcBit (c : BitVec 16) : BitVec 16 := if c.msb then (c <<< 1) ^^^ 0x1021#16 else c <<< 1

/-- One byte of the check value, most significant bit first (R185). -/
def crcByte (c : BitVec 16) (b : Byte) : BitVec 16 :=
  crcBit (crcBit (crcBit (crcBit (crcBit (crcBit (crcBit (crcBit (c ^^^ (b.zeroExtend 16 <<< 8)))))))))

/-- The check value of a run of bytes, from the initial value 0xFFFF (R185). -/
def crc (bs : List Byte) : BitVec 16 := bs.foldl crcByte 0xFFFF#16

/-- The high and the low byte of a 16-bit value, high first (R185). -/
def bytesOf (v : BitVec 16) : List Byte := [(v >>> 8).truncate 8, v.truncate 8]

/-- A frame: marker, length, class, code, tag, payload and check value (R185). -/
def frameBytes (cls code tag : Byte) (payload : List Byte) : List Byte :=
  let body := BitVec.ofNat 8 (payload.length + 3) :: cls :: code :: tag :: payload
  0xC3 :: (body ++ bytesOf (crc body))

/-- The status byte of a reply (R185). -/
def ReplyStatus.byte : ReplyStatus → Byte
  | .done => 0 | .accepted => 1 | .busy => 2 | .refused => 3
  | .badParameter => 4 | .unknown => 5 | .frameError => 6 | .overrun => 7

/-- A content cut into parts of at most `size` bytes, at least one part and at most sixteen (R178). -/
def chunks (size : Nat) : Nat → List Byte → List (List Byte)
  | 0, _ => []
  | fuel + 1, bs => bs.take size :: (if bs.length ≤ size then [] else chunks size fuel (bs.drop size))

/-- The parts of a run, each with its part byte: its number in bits 0 to 3, the number of parts less one in bits 4 to 7
(R178). -/
def parts (size : Nat) (bs : List Byte) : List (List Byte) :=
  let cs := chunks size 16 bs
  cs.zipIdx.map fun (c, i) => BitVec.ofNat 8 (i + 16 * (cs.length - 1)) :: c

/-- The bytes of content that a reply frame can hold after its part byte (R178). -/
def replyPart : Nat := 59

/-- The frames of what is being sent (R173, R176, R178). A DONE reply to STATUS carries part bytes, other replies none. -/
def Outgoing.frames : Outgoing → List (List Byte)
  | .reply code tag status .none _ => [frameBytes 2 code tag [status.byte]]
  | .reply code tag status (.bytes b) _ => [frameBytes 2 code tag (status.byte :: b)]
  | .reply code tag status (.content c) _ =>
    if code = 0x02 then (parts replyPart (Config.contentBytes c)).map fun p => frameBytes 2 code tag (status.byte :: p)
    else [frameBytes 2 code tag (status.byte :: Config.contentBytes c)]
  | .notice kind c =>
    (parts 60 (Config.contentBytes c)).map (frameBytes 3 (BitVec.ofNat 8 (kind.index.val + 1)) 0)

/-! ### Replies owed -/

/-- A count raised by one, staying at 255 (R172, R174). -/
def raiseCount (n : Nat) : Nat := min (n + 1) 255

/-- A FRAME_ERROR reply becomes owed, or the count of the one owed is raised (R172). -/
def oweFrameError (owed : List Owed) : List Owed :=
  let isError (o : Owed) : Bool := match o with
    | .frameError _ => true
    | .command | .overrun _ _ _ => false
  if owed.any isError then
    owed.map fun o => match o with
      | .frameError n => .frameError (raiseCount n)
      | .command => .command
      | .overrun c t n => .overrun c t n
  else owed ++ [.frameError 1]

/-- An OVERRUN reply becomes owed, or the count of the one owed is raised (R174). -/
def oweOverrun (code tag : Byte) (owed : List Owed) : List Owed :=
  let isOverrun (o : Owed) : Bool := match o with
    | .overrun _ _ _ => true
    | .command | .frameError _ => false
  if owed.any isOverrun then
    owed.map fun o => match o with
      | .overrun c t n => .overrun c t (raiseCount n)
      | .command => .command
      | .frameError n => .frameError n
  else owed ++ [.overrun code tag 1]

/-! ### Receiving -/

/-- Whether the receiver runs and takes what comes: not in SLEEP, not held in reset, not discarding after a wake, and not during a
break (R171, R179, R189, R191). -/
def State.receiving (s : State) : Bool := s.live && !s.link.discarding && !s.link.lineLow

/-- A failed frame (R172). -/
def State.failFrame (s : State) : State :=
  { s with link := { s.link with receiver := .hunting, owed := oweFrameError s.link.owed } }

/-- HOST_SILENT is set or cleared; a change posts the FAULT notice (R180, R181). -/
def State.setHostSilent (b : Bool) (s : State) : State :=
  State.postIf (s.link.hostSilent != b) .fault { s with link.hostSilent := b }

/-- A command frame arrives (R173, R174, R180): it restarts the silence timer and clears HOST_SILENT, and is placed in the slot, or
discarded with an OVERRUN reply. -/
def State.arrive (c : Command) (s : State) : State :=
  let heard := (State.startSilence { s with link.receiver := .hunting }).setHostSilent false
  match s.link.slot with
  | .empty => { heard with link := { heard.link with slot := .inHand c, owed := heard.link.owed ++ [.command] } }
  | .inHand _ | .replied _ _ _ => { heard with link.owed := oweOverrun c.code c.tag heard.link.owed }

/-- The command of a complete frame, from its length byte to its last check byte, where it passes the judgement: a length of 3 to
64 that the frame has, the check value, and the class of a command (R172, R185). -/
def parseFrame (frame : List Byte) : Option Command :=
  match frame with
  | n :: cls :: code :: tag :: rest =>
    let payload := rest.take (n.toNat - 3)
    if 3 ≤ n.toNat ∧ n.toNat ≤ 64 ∧ rest.length = n.toNat - 1
        ∧ rest.drop (n.toNat - 3) = bytesOf (crc (n :: cls :: code :: tag :: payload)) ∧ cls = 1 then
      some ⟨code, tag, payload⟩
    else none
  | _ => none

/-- A complete frame is judged (R172). -/
def State.judgeFrame (frame : List Byte) (s : State) : State :=
  match parseFrame frame with
  | some c => s.arrive c
  | none => s.failFrame

/-- A byte taken by a running receiver (R171). -/
def State.takeByte (b : Byte) (s : State) : State :=
  match s.link.receiver with
  | .hunting => if b = 0xC3 then { s with link := { s.link with receiver := .inFrame [], gap := 0 } } else s
  | .inFrame [] =>
    if 3 ≤ b.toNat ∧ b.toNat ≤ 64 then { s with link := { s.link with receiver := .inFrame [b], gap := 0 } } else s.failFrame
  | .inFrame (n :: bs) =>
    if bs.length + 1 = n.toNat + 2 then s.judgeFrame (n :: bs ++ [b])
    else { s with link := { s.link with receiver := .inFrame (n :: bs ++ [b]), gap := 0 } }

/-- BYTE_RECEIVED (R171). -/
def State.byteReceived (b : Byte) (s : State) : State := if s.receiving then s.takeByte b else s

/-- FRAME_RECEIVED (R172, log 3). -/
def State.frameReceived (frame : List Byte) (s : State) : State := if s.receiving then s.judgeFrame frame else s

/-- BYTE_ERROR (R171). -/
def State.byteError (s : State) : State :=
  if !s.receiving then s
  else match s.link.receiver with
    | .hunting => s
    | .inFrame _ => s.failFrame

/-- FRAME_GAP (R171). -/
def State.frameGap (s : State) : State := if s.receiving then { s with link.receiver := .hunting } else s

/-! ### Taking a command -/

/-- What a taken command is answered (R173, R175). -/
abbrev Reply := ReplyStatus × ReplyData

/-- The command in the slot is taken: answered BUSY in STARTING, otherwise by its owning block, which gives the status and the data
(R173, R182). The content of a run of frames is gathered once more when the run begins (`State.dataSent`). -/
def State.takeCommand (c : Command) (act : State → State × Reply) (s : State) : State :=
  if s.power.state = .starting then { s with link.slot := .replied c .busy .none }
  else
    let (acted, reply) := act s
    { acted with link.slot := .replied c reply.1 reply.2 }

/-- A host command: the command in hand is taken; where it is not in hand, its frame arrives first, and it is taken if the slot was
empty (R173, R174, log 2). -/
def State.hostCommand (code tag : Byte) (payload : List Byte) (act : State → State × Reply) (s : State) : State :=
  let c : Command := ⟨code, tag, payload⟩
  if !s.live then s
  else if s.link.slot = .inHand c then s.takeCommand c act
  else if !s.receiving then s
  else if s.link.slot = .empty then (s.arrive c).takeCommand c act
  else s.arrive c

/-! ### Transmitting -/

/-- The kinds in the transmit order (R177). -/
def noticeOrder : List NoticeKind := [.ready, .brace, .fault, .supply, .plan, .axis, .profile, .massage, .heat, .switch]

/-- The data that a command's reply carries, as its frame begins. They are those the command was answered with, but that the content of
a DONE reply to STATUS too long for one frame, and so a run of frames, is gathered now (R178, log 40). -/
def State.dataSent (s : State) (c : Command) (data : ReplyData) : ReplyData :=
  match data with
  | .content taken =>
    match readSelector c.payload with
    | some sel =>
      if c.code = 0x02 ∧ replyPart < (Config.contentBytes taken).length then .content (s.statusContent sel) else .content taken
    | none => .content taken
  | .none | .bytes _ => data

/-- The reply at the head of those owed, where it is ready (R175). -/
def State.readyReply (s : State) : Option Outgoing :=
  match s.link.owed with
  | [] => none
  | .command :: _ =>
    match s.link.slot with
    | .replied c status data => some (.reply c.code c.tag status (s.dataSent c data) true)
    | .empty | .inHand _ => none
  | .overrun code tag n :: _ => some (.reply code tag .overrun (.bytes [BitVec.ofNat 8 n]) false)
  | .frameError n :: _ => some (.reply 0 0 .frameError (.bytes [BitVec.ofNat 8 n]) false)

/-- The transmitter, when no frame is being sent, chooses the next: the head reply if it is ready, otherwise the first pending
notice (R176, R177). It is off in SLEEP and while the part is held in reset. -/
def State.transmit (s : State) : State :=
  if !s.live || s.link.sending.isSome then s
  else match s.readyReply with
    | some out => { s with link := { s.link with sending := some out, owed := s.link.owed.tail } }
    | none =>
      match noticeOrder.find? fun k => s.link.pendingNotices[k.index] with
      | some k =>
        { s with link := { s.link with
            sending := some (.notice k (s.noticeContent k)), pendingNotices := s.link.pendingNotices.set k.index false } }
      | none => s

/-- Whether what is being sent is the reply DONE to RESTART. -/
def Outgoing.isRestart : Outgoing → Bool
  | .reply code _ status _ _ => code == 0x51 && status == .done
  | .notice _ _ => false

/-- Whether the end of what is being sent empties the command slot (R173). -/
def Outgoing.ofSlot : Outgoing → Bool
  | .reply _ _ _ _ b => b
  | .notice _ _ => false

/-- FRAME_SENT (R173, R177, R189): the reset of a RESTART is taken when its reply has been sent. -/
def State.frameSent (s : State) : State :=
  match s.link.sending with
  | none => s
  | some out =>
    if s.link.restartDue && out.isRestart then s.takeReset .restart s.power.held
    else { s with link := { s.link with sending := none, slot := if out.ofSlot then .empty else s.link.slot } }

/-! ### Break, silence and wake -/

/-- A reply being sent whose command slot a break has emptied (R179, log 25). -/
def Outgoing.detached : Outgoing → Outgoing
  | .reply code tag status data _ => .reply code tag status data false
  | .notice k c => .notice k c

/-- Whether a RESTART answered DONE has its reply unsent (R189). -/
def State.restartUnsent (s : State) : Bool :=
  s.link.restartDue && !s.link.sending.any Outgoing.isRestart

/-- BREAK (R179, R189). -/
def State.lineBreak (s : State) : State :=
  if !s.receiving then s
  else
    let broken : State := { s with link := { s.link with
      receiver := .hunting, lineLow := true, slot := .empty, owed := [], sending := s.link.sending.map Outgoing.detached } }
    if s.restartUnsent then broken.takeReset .restart false else broken.startSilence

/-- BREAK_END: the receive line has returned high (R179). -/
def State.breakEnd (s : State) : State := { s with link.lineLow := false }

/-- The silence timer expires (R180): every expiry posts the FAULT notice, one that finds HOST_SILENT raised already as well. -/
def State.silenceExpiry (s : State) : State :=
  if !s.up || s.link.silenceLeft.isNone then s
  else
    let silent := (State.post .fault { s with link := { s.link with silenceLeft := none, hostSilent := true } }).heatOff
    if s.brace.state = .idle then silent.haltMassage .silence
    else { silent with brace.snapshot := silent.brace.snapshot.map fun n => { n with massage := none } }

/-- LINK_ACTIVITY: in SLEEP the receive line going low wakes the part (R191). -/
def State.linkActivity (s : State) : State :=
  if !s.power.held && s.power.state == .sleep then s.wakeBy .link else s

/-- WAKE_DISCARD_END (R191). -/
def State.wakeDiscardEnd (s : State) : State :=
  { s with link := { s.link with discarding := false, receiver := if s.link.discarding then .hunting else s.link.receiver } }

end Machine

end Sys2Proof
end

