-- ==== Sys2Proof/Machine/Operands.lean ====
section
/-! DEFINITION. The operands of the host's commands: every payload layout of 10 R185, read from its bytes. A payload of the wrong
length or with a value out of range reads as none, which is answered BAD_PARAMETER. Profile slots 1 to 6 are counted from
0 inside. The selector of STATUS is read in Flags.lean, since the transmitter reads it too. -/

namespace Sys2Proof.Machine

/-! ### Fields -/

/-- A number below a bound. -/
def below (n x : Nat) : Option (Fin n) := if h : x < n then some ⟨x, h⟩ else none

/-- A number between two bounds. -/
def within (lo hi x : Nat) : Option Nat := if lo ≤ x ∧ x ≤ hi then some x else none

/-- A two-byte value, high byte first (R185). -/
def word (hi lo : Byte) : Nat := hi.toNat * 256 + lo.toNat

/-- A two-byte value in two's complement (R185). -/
def signedWord (hi lo : Byte) : Int := if word hi lo < 32768 then (word hi lo : Int) else (word hi lo : Int) - 65536

/-- An axis number. -/
def readAxis (b : Byte) : Option (Fin 8) := below 8 b.toNat

/-- A profile slot 1 to 6. -/
def readSlot (x : Nat) : Option (Fin 6) := if x = 0 then none else below 6 (x - 1)

/-- A position 0 to 8,191. -/
def readPosition (hi lo : Byte) : Option Nat := within 0 Config.maxPosition (word hi lo)

/-- A value that must hold is found, or the reading fails. -/
def require (b : Bool) : Option Unit := if b then some () else none

/-! ### Short payloads -/

/-- VEHICLE (R79). -/
def readVehicle : List Byte → Option Vehicle
  | [b] => if b = 0 then some .parked else if b = 1 then some .moving else none
  | _ => none

/-- MOVE: axis and target (R33). -/
def readMove : List Byte → Option (Fin 8 × Nat)
  | [a, hi, lo] => do return (← readAxis a, ← readPosition hi lo)
  | _ => none

/-- A direction (R33). -/
def readDir (b : Byte) : Option Dir := if b = 0 then some .plus else if b = 1 then some .minus else none

/-- JOG: axis and direction (R33). -/
def readJog : List Byte → Option (Fin 8 × Dir)
  | [a, d] => do return (← readAxis a, ← readDir d)
  | _ => none

/-- HALT: an axis, or none inside for all axes (R40). -/
def readHalt : List Byte → Option (Option (Fin 8))
  | [b] => if b = 0xFF then some none else (readAxis b).map some
  | _ => none

/-- REFERENCE: an axis (R18). -/
def readReference : List Byte → Option (Fin 8)
  | [a] => readAxis a
  | _ => none

/-- PLAN_RUN: start index, policy and notify (R64). -/
def readPlanRun : List Byte → Option (Fin 32 × Policy × Bool)
  | [i, p, n] => do
    let start ← below 32 i.toNat
    let policy ← if p = 0 then some Policy.stopError else if p = 1 then some .endQuiet else none
    let notify ← if n = 0 then some false else if n = 1 then some true else none
    return (start, policy, notify)
  | _ => none

/-- The targets of PLAN_CANCEL (R78). -/
inductive CancelTarget where
  | current | next | all
  deriving DecidableEq, Repr

/-- PLAN_CANCEL (R78). -/
def readCancel : List Byte → Option CancelTarget
  | [b] => if b = 0 then some .current else if b = 1 then some .next else if b = 2 then some .all else none
  | _ => none

/-- A payload that is one profile slot (R89, R90, R92). -/
def readOneSlot : List Byte → Option (Fin 6)
  | [b] => readSlot b.toNat
  | _ => none

/-- A payload that is one pattern slot (R131). -/
def readPatternSlot : List Byte → Option (Fin 8)
  | [b] => below 8 b.toNat
  | _ => none

/-- MASSAGE_START: slot and intensity (R129). -/
def readMassageStart : List Byte → Option (Fin 8 × Nat)
  | [p, i] => do return (← below 8 p.toNat, ← within 1 5 i.toNat)
  | _ => none

/-- BRACE_RELEASE: the after-crash flag (R160, R161). -/
def readFlag : List Byte → Option Bool
  | [b] => if b = 0 then some false else if b = 1 then some true else none
  | _ => none

/-- SUPPLY_LIMIT (R45). -/
def readLimit : List Byte → Option Nat
  | [b] => within 10 60 b.toNat
  | _ => none

/-- A command without a payload. -/
def readNothing : List Byte → Option Unit
  | [] => some ()
  | _ => none

/-! ### Elements and configuration items -/

/-- The elements of FAULT_CLEAR (R184). -/
inductive Element where
  | axis (a : Fin 8)
  | cell (c : Fin 12)
  | pump
  | zone (z : Fin 4)
  deriving DecidableEq, Repr

/-- FAULT_CLEAR: element class and index (R184, R185). -/
def readElement : List Byte → Option Element
  | [k, i] =>
    match k.toNat with
    | 0 => (below 8 i.toNat).map .axis
    | 1 => (below 12 i.toNat).map .cell
    | 2 => if i = 0 then some .pump else none
    | 3 => (below 4 i.toNat).map .zone
    | _ => none
  | _ => none

/-- The configuration items with their indices (R185). -/
inductive ConfigItem where
  | ratedUnits (a : Fin 8)
  | stallWindow (a : Fin 8)
  | coastLead (a : Fin 8)
  | tolerance (a : Fin 8)
  | margin (a : Fin 8)
  | braceTarget (a : Fin 8)
  | pumpRated
  | zoneRated (z : Fin 4)
  | zoneMaxDuty (z : Fin 4)
  | intensityPressure (i : Fin 5)
  | sessionLength
  | braceDeadline
  | braceHoldTime
  | bolsterPressure
  | ackMode
  | silenceTime
  deriving DecidableEq, Repr

/-- An item number and an index (R183, R185). -/
def readItem (item index : Byte) : Option ConfigItem :=
  let only (x : ConfigItem) : Option ConfigItem := if index = 0 then some x else none
  match item.toNat with
  | 1 => (readAxis index).map .ratedUnits
  | 2 => (readAxis index).map .stallWindow
  | 3 => (readAxis index).map .coastLead
  | 4 => (readAxis index).map .tolerance
  | 5 => (readAxis index).map .margin
  | 6 => (readAxis index).map .braceTarget
  | 16 => only .pumpRated
  | 17 => (below 4 index.toNat).map .zoneRated
  | 18 => (below 4 index.toNat).map .zoneMaxDuty
  | 24 => if index = 0 then none else (below 5 (index.toNat - 1)).map .intensityPressure
  | 25 => only .sessionLength
  | 32 => only .braceDeadline
  | 33 => only .braceHoldTime
  | 34 => only .bolsterPressure
  | 35 => only .ackMode
  | 40 => only .silenceTime
  | _ => none

/-- CONFIG_SET: an item, and a value not yet judged (R183). -/
def readConfigSet : List Byte → Option (ConfigItem × Nat)
  | [item, index, hi, lo] => do return (← readItem item index, word hi lo)
  | _ => none

/-- CONFIG_GET: an item (R183). -/
def readConfigGet : List Byte → Option ConfigItem
  | [item, index] => readItem item index
  | _ => none

/-- A brace target as its item's value (R185). -/
def readBraceTarget (v : Nat) : Option BraceTarget :=
  if v ≤ Config.maxPosition then some (.absolute v)
  else if v = 0xFFF0 then some .none
  else if v = 0xFFF1 then some .lower
  else if v = 0xFFF2 then some .upper
  else Option.none

/-- A brace-ack mode as its item's value (R185). -/
def readAckMode (v : Nat) : Option AckMode :=
  match v with
  | 0 => some .pulse | 1 => some .level | 2 => some .done | 3 => some .off
  | _ => none

/-! ### Cells and zones -/

/-- Entries that name each element once. -/
def distinct {α β : Type} [DecidableEq α] (l : List (α × β)) : Bool := decide (l.map Prod.fst).Nodup

/-- One entry of CELL_SET: a cell 8 to 11 and a target (R125). -/
def readCellEntry (c t : Byte) : Option (Fin 12 × Nat) := do
  let cell ← below 12 c.toNat
  require (8 ≤ cell.val)
  return (cell, ← within 0 Config.maxPressure t.toNat)

/-- The entries of CELL_SET after its count. -/
def readCellEntries : List Byte → Option (List (Fin 12 × Nat))
  | [] => some []
  | c :: t :: rest => do return (← readCellEntry c t) :: (← readCellEntries rest)
  | [_] => none

/-- CELL_SET: a count of 1 to 4, and that many different cells with their targets (R125, R185). -/
def readCellSet : List Byte → Option (List (Fin 12 × Nat))
  | n :: rest => do
    let _ ← within 1 4 n.toNat
    let es ← readCellEntries rest
    require (es.length = n.toNat && distinct es)
    return es
  | [] => none

/-- A setpoint of 20 to 45 °C in half-degree steps (R136, R185). -/
def readSetpoint (b : Byte) : Option Nat := within 40 90 b.toNat

/-- One entry of HEAT_SET: a zone and its mode; the value is ignored for OFF (R138, R185). -/
def readZoneEntry (z m v : Byte) : Option (Fin 4 × ZoneMode) := do
  let zone ← below 4 z.toNat
  match m.toNat with
  | 0 => some (zone, .off)
  | 1 => (within 0 100 v.toNat).map fun d => (zone, .manual d)
  | 2 => (readSetpoint v).map fun sp => (zone, .auto sp)
  | 3 => (readSetpoint v).map fun sp => (zone, .boost sp)
  | _ => none

/-- The entries of HEAT_SET after its count. -/
def readZoneEntries : List Byte → Option (List (Fin 4 × ZoneMode))
  | [] => some []
  | z :: m :: v :: rest => do return (← readZoneEntry z m v) :: (← readZoneEntries rest)
  | [_] | [_, _] => none

/-- HEAT_SET: a count of 1 to 4, and that many different zones with their modes (R138, R185). -/
def readHeatSet : List Byte → Option (List (Fin 4 × ZoneMode))
  | n :: rest => do
    let _ ← within 1 4 n.toNat
    let es ← readZoneEntries rest
    require (es.length = n.toNat && distinct es)
    return es
  | [] => none

/-! ### Profiles -/

/-- The presence set of a record or a capture mask: bits 0 to 10 of a two-byte value, of which one at least must be set; the spare
bit 11 and the bits 12 to 15 must be 0 (R82, R85, R88, R185). -/
def readPresence (hi lo : Byte) : Option (BitVec 16) :=
  let w := word hi lo
  if 1 ≤ w ∧ w < 2048 then some (BitVec.ofNat 16 w) else none

/-- PROFILE_STORE: a slot and a capture mask (R85). -/
def readProfileStore : List Byte → Option (Fin 6 × CaptureMask)
  | [p, hi, lo] => do
    let slot ← readSlot p.toNat
    let set ← readPresence hi lo
    return (slot, ⟨Vector.ofFn fun a : Fin 8 => set.getLsbD a.val, set.getLsbD 8, set.getLsbD 9, set.getLsbD 10⟩)
  | _ => none

/-- A byte of a payload known to be long enough. -/
def byteAt (bs : List Byte) (i : Nat) : Byte := bs.getD i 0

/-- An optional field: absent, or present and in range. -/
def readOptional {α : Type} (present : Bool) (x : Option α) : Option (Option α) :=
  if present then x.map some else some none

/-- A zone's preset in a profile record (R82, R185). The value byte of a zone that is OFF is ignored, as HEAT_SET's is (log 42: the
model's choice). -/
def readPreset (m v : Byte) : Option HeatPreset :=
  match m.toNat with
  | 0 => some .off
  | 1 => (within 0 100 v.toNat).map .manual
  | 2 => (readSetpoint v).map .auto
  | _ => none

/-- The eight optional positions of a profile record (R185). -/
def readPositions (set : BitVec 16) (bs : List Byte) : Option (Vector (Option Nat) 8) :=
  let read (a : Fin 8) : Option (Option Nat) :=
    readOptional (set.getLsbD a.val) (readPosition (byteAt bs (4 + 2 * a.val)) (byteAt bs (5 + 2 * a.val)))
  if (List.finRange 8).all fun a => (read a).isSome then some (Vector.ofFn fun a => (read a).getD none) else none

/-- The four zone presets of a profile record (R185). -/
def readPresets (bs : List Byte) : Option (Vector HeatPreset 4) := do
  let z0 ← readPreset (byteAt bs 22) (byteAt bs 23)
  let z1 ← readPreset (byteAt bs 24) (byteAt bs 25)
  let z2 ← readPreset (byteAt bs 26) (byteAt bs 27)
  let z3 ← readPreset (byteAt bs 28) (byteAt bs 29)
  return #v[z0, z1, z2, z3]

/-- The lumbar field of a profile record (R82, R185). -/
def readLumbar (bs : List Byte) : Option (Nat × Nat) := do
  return (← within 0 Config.maxLumbar (byteAt bs 20).toNat, ← within 0 Config.maxLumbar (byteAt bs 21).toNat)

/-- The massage field of a profile record (R82, R185). -/
def readMassagePreset (bs : List Byte) : Option (Fin 8 × Nat) := do
  return (← below 8 (byteAt bs 30).toNat, ← within 1 5 (byteAt bs 31).toNat)

/-- PROFILE_WRITE: a slot and a whole record of 33 bytes; state and flags are ignored (R88, R185). -/
def readProfileWrite (bs : List Byte) : Option (Fin 6 × ProfileContent) := do
  require (bs.length = 33)
  let slot ← readSlot (byteAt bs 0).toNat
  let set ← readPresence (byteAt bs 2) (byteAt bs 3)
  let positions ← readPositions set bs
  let lumbar ← readOptional (set.getLsbD 8) (readLumbar bs)
  let heat ← readOptional (set.getLsbD 9) (readPresets bs)
  let massage ← readOptional (set.getLsbD 10) (readMassagePreset bs)
  return (slot, ⟨positions, lumbar, heat, massage⟩)

/-! ### Step descriptors -/

/-- The next field of a descriptor: none inside is END (R61, R185). -/
def readNext (b : Byte) : Option (Option (Fin 32)) := if b = 0xFF then some none else (below 32 b.toNat).map some

/-- One axis entry of a MOVE descriptor (R61, R185). -/
def readAxisTarget (b hi lo : Byte) : Option AxisTarget := do
  let axis ← below 8 (b.toNat % 16)
  match b.toNat / 16 with
  | 0 => (readPosition hi lo).map fun p => ⟨axis, .absolute p⟩
  | 1 =>
    let d := signedWord hi lo
    if -8191 ≤ d ∧ d ≤ 8191 then some ⟨axis, .relative d⟩ else none
  | 2 => (readSlot (word hi lo)).map fun p => ⟨axis, .profile p⟩
  | _ => none

/-- The axis entries of a MOVE descriptor, as many as the count says. -/
def readAxisTargets : Nat → List Byte → Option (List AxisTarget)
  | 0, _ => some []
  | n + 1, b :: hi :: lo :: rest => do return (← readAxisTarget b hi lo) :: (← readAxisTargets n rest)
  | _ + 1, _ => none

/-- The body of a valid descriptor: flags, next, axis count and the nine bytes after them (R61, R185). -/
def readBody (flags : Nat) (next count : Byte) (rest : List Byte) : Option Descriptor := do
  let following ← readNext next
  if flags.testBit 1 then
    let length ← within 1 1000 (word (byteAt rest 0) (byteAt rest 1))
    return .pause length following
  else
    let n ← within 1 3 count.toNat
    let targets ← readAxisTargets n rest
    require (decide (targets.map (·.axis)).Nodup)
    return .move targets (flags.testBit 2) (flags.testBit 3) following

/-- One step descriptor of 13 bytes: its index, and its content or none for valid = no (R62, R185). -/
def readDescriptor (bs : List Byte) : Option (Fin 32 × Option Descriptor) := do
  let index ← below 32 (byteAt bs 0).toNat
  let flags := (byteAt bs 1).toNat
  require (flags < 16)
  if flags.testBit 0 then
    let d ← readBody flags (byteAt bs 2) (byteAt bs 3) (bs.drop 4)
    return (index, some d)
  else return (index, none)

/-- The descriptors of PLAN_LOAD after its count. -/
def readDescriptors : Nat → List Byte → Option (List (Fin 32 × Option Descriptor))
  | 0, [] => some []
  | 0, _ :: _ => none
  | n + 1, bs => do return (← readDescriptor (bs.take 13)) :: (← readDescriptors n (bs.drop 13))

/-- PLAN_LOAD: a count of 1 to 4, and that many descriptors of different indices (R62, R185). -/
def readPlanLoad : List Byte → Option (List (Fin 32 × Option Descriptor))
  | n :: rest => do
    let count ← within 1 4 n.toNat
    require (rest.length = 13 * count)
    let ds ← readDescriptors count rest
    require (distinct ds)
    return ds
  | [] => none

/-! ### Patterns -/

/-- The two parts of PATTERN_LOAD (R128). -/
inductive PatternPart where
  | header (slot : Fin 8) (period stepTime : Nat)
  | mask (slot : Fin 8) (masks : Vector (BitVec 16) 8)
  deriving DecidableEq, Repr

/-- PATTERN_LOAD: a header part of 4 bytes or a mask part of 18 (R128, R185). -/
def readPatternPart : List Byte → Option PatternPart
  | p :: kind :: rest => do
    let slot ← below 8 p.toNat
    if kind = 0 then
      match rest with
      | [period, time] => return .header slot (← within 1 16 period.toNat) (← within 1 20 time.toNat)
      | _ => none
    else if kind = 1 then
      require (rest.length = 16)
      return .mask slot (Vector.ofFn fun i : Fin 8 => BitVec.ofNat 16 (word (byteAt rest (2 * i.val)) (byteAt rest (2 * i.val + 1))))
    else none
  | _ => none

end Sys2Proof.Machine
end

