-- ==== Sys2Proof/Machine/Settings.lean ====
section
/-! DEFINITION. Configuration items, the budget limit, FAULT_CLEAR, and the bytes of a profile record read back (R23, R45, R58, R90,
R132, R143, R151, R180, R183, R184). -/

namespace Sys2Proof.Machine

/-! ### Per-axis items -/

/-- An axis's configuration is changed. -/
def State.setAxisConfig (a : Fin 8) (f : AxisConfig → AxisConfig) (s : State) : State :=
  s.setAxis a { s.axis a with cfg := f (s.axis a).cfg }

/-- An item is applied where its value is in range, and otherwise answered BAD_PARAMETER. -/
def State.applyIn (ok : Bool) (f : State → State) (s : State) : State × ReplyStatus :=
  if ok then (f s, .done) else (s, .badParameter)

/-- Rated units: checked against the budget limit; units lowered let the arbiter run (R23, R58). -/
def State.setRatedUnits (a : Fin 8) (v : Nat) (s : State) : State × ReplyStatus :=
  if v < 2 ∨ 30 < v then (s, .badParameter)
  else
    let set := s.setAxisConfig a fun c => { c with ratedUnits := v }
    if s.gov.limit < braceSum set.axes then (s, .badParameter)
    else (if v < (s.axis a).cfg.ratedUnits then set.call [.arbiter] else set, .done)

/-- Margin (R23): BUSY for an axis that is not IDLE, BAD_PARAMETER where twice the margin would exceed the travel. -/
def State.setMargin (a : Fin 8) (v : Nat) (s : State) : State × ReplyStatus :=
  let x := s.axis a
  if v < 4 ∨ 64 < v then (s, .badParameter)
  else if x.activity ≠ .idle then (s, .busy)
  else if x.referenced && x.travel.any (fun t => decide (t < 2 * v)) then (s, .badParameter)
  else (s.setAxisConfig a fun c => { c with margin := v }, .done)

/-- Brace target (R23, R151): REFUSED during a brace, BAD_PARAMETER beyond the budget limit or three axes. -/
def State.setBraceTarget (a : Fin 8) (v : Nat) (s : State) : State × ReplyStatus :=
  match readBraceTarget v with
  | none => (s, .badParameter)
  | some t =>
    if s.brace.state ≠ .idle then (s, .refused)
    else
      let set := s.setAxisConfig a fun c => { c with braceTarget := t }
      if s.gov.limit < braceSum set.axes ∨ Config.maxBraceAxes < braceAxisCount set.axes then (s, .badParameter)
      else (set, .done)

/-! ### Brace and link items -/

/-- A brace item: a value in range is REFUSED during a brace, one out of range BAD_PARAMETER at any time (R151; the order of the two is
log 54's, the model's choice). -/
def State.applyBrace (ok : Bool) (f : Brace → Brace) (s : State) : State × ReplyStatus :=
  if !ok then (s, .badParameter)
  else if s.brace.state ≠ .idle then (s, .refused)
  else ({ s with brace := f s.brace }, .done)

/-- The silence time: 0, or 2 to 60 s; an applied change restarts the timer (R180, R183). -/
def State.setSilenceTime (v : Nat) (s : State) : State × ReplyStatus :=
  if v = 1 ∨ 60 < v then (s, .badParameter)
  else (State.startSilence { s with link.silenceTime := v }, .done)

/-! ### CONFIG_SET and CONFIG_GET -/

/-- Whether a value lies in a range. -/
def inRange (lo hi v : Nat) : Bool := decide (lo ≤ v) && decide (v ≤ hi)

/-- CONFIG_SET of an item, by its owning rule (R183). -/
def State.configSet (item : ConfigItem) (v : Nat) (s : State) : State × ReplyStatus :=
  match item with
  | .ratedUnits a => s.setRatedUnits a v
  | .stallWindow a => s.applyIn (inRange 20 250 v) (State.setAxisConfig a fun c => { c with stallWindow := v })
  | .coastLead a => s.applyIn (inRange 0 32 v) (State.setAxisConfig a fun c => { c with coastLead := v })
  | .tolerance a => s.applyIn (inRange 2 32 v) (State.setAxisConfig a fun c => { c with tolerance := v })
  | .margin a => s.setMargin a v
  | .braceTarget a => s.setBraceTarget a v
  | .pumpRated => s.applyIn (inRange 2 20 v) fun t => { t with gov.pumpRated := v }
  | .zoneRated z => s.applyIn (inRange 2 20 v) fun t => State.recompute { t with gov.zoneRated := t.gov.zoneRated.set z v }
  | .zoneMaxDuty z => s.applyIn (inRange 10 100 v) (State.setMaxDuty z v)
  | .intensityPressure i => s.applyIn (inRange 4 120 v) fun t => { t with massage.pressures := t.massage.pressures.set i v }
  | .sessionLength => s.applyIn (inRange 1 60 v) fun t => { t with massage.sessionLength := v }
  | .braceDeadline => s.applyBrace (inRange 200 1500 v) fun b => { b with deadline := v }
  | .braceHoldTime => s.applyBrace (inRange 2 30 v) fun b => { b with holdTime := v }
  | .bolsterPressure => s.applyBrace (inRange 20 120 v) fun b => { b with bolsterPressure := v }
  | .ackMode => s.applyBrace (readAckMode v).isSome fun b => { b with ackMode := (readAckMode v).getD .level }
  | .silenceTime => s.setSilenceTime v

/-- A brace target as its item's value (R185). -/
def BraceTarget.value : BraceTarget → Nat
  | .none => 0xFFF0 | .lower => 0xFFF1 | .upper => 0xFFF2
  | .absolute p => p

/-- A brace-ack mode as its item's value (R185). -/
def AckMode.value : AckMode → Nat
  | .pulse => 0 | .level => 1 | .done => 2 | .off => 3

/-- An item's present value (R183). -/
def State.configValue (s : State) : ConfigItem → Nat
  | .ratedUnits a => (s.axis a).cfg.ratedUnits
  | .stallWindow a => (s.axis a).cfg.stallWindow
  | .coastLead a => (s.axis a).cfg.coastLead
  | .tolerance a => (s.axis a).cfg.tolerance
  | .margin a => (s.axis a).cfg.margin
  | .braceTarget a => (s.axis a).cfg.braceTarget.value
  | .pumpRated => s.gov.pumpRated
  | .zoneRated z => s.gov.zoneRated[z]
  | .zoneMaxDuty z => (s.zone z).maxDuty
  | .intensityPressure i => s.massage.pressures[i]
  | .sessionLength => s.massage.sessionLength
  | .braceDeadline => s.brace.deadline
  | .braceHoldTime => s.brace.holdTime
  | .bolsterPressure => s.brace.bolsterPressure
  | .ackMode => s.brace.ackMode.value
  | .silenceTime => s.link.silenceTime

/-- A number as two bytes, high byte first (R185). -/
def natBytes (v : Nat) : List Byte := bytesOf (BitVec.ofNat 16 v)

/-- The reply data of CONFIG_GET: item, index and value (R183). -/
def State.configReply (s : State) (item : ConfigItem) (payload : List Byte) : List Byte :=
  payload ++ natBytes (s.configValue item)

/-! ### SUPPLY_LIMIT and FAULT_CLEAR -/

/-- SUPPLY_LIMIT of a value in range (R45). -/
def State.setLimit (v : Nat) (s : State) : State × ReplyStatus :=
  if v < braceSum s.axes then (s, .badParameter)
  else if v < s.motorUnits + s.gov.pumpGrant then (s, .busy)
  else
    let set := State.postIf (s.gov.limit != v) .supply { s with gov.limit := v }
    (if s.gov.limit < v then set.unitsReturned else set.recompute, .done)

/-- FAULT_CLEAR of an element (R184), with the pump current at that moment. -/
def State.clearElement (e : Element) (current : Nat) (s : State) : State × ReplyStatus :=
  match e with
  | .axis a => s.clearAxis a
  | .cell c => (s.clearCell c, .done)
  | .pump => s.clearPump current
  | .zone z => s.clearZone z

/-! ### A profile record read back -/

/-- Bits as a number, bit 0 first. -/
def bitsValue : List Bool → Nat
  | [] => 0
  | b :: bs => (if b then 1 else 0) + 2 * bitsValue bs

/-- The state byte of a profile (R185). -/
def ProfileState.byte : ProfileState → Byte
  | .empty => 0 | .valid => 1 | .corrupt => 2

/-- A zone's preset as its two bytes (R185); the value byte of a zone that is OFF reads as 0 (log 42: the model's choice). -/
def HeatPreset.bytes : HeatPreset → List Byte
  | .off => [0, 0]
  | .manual d => [1, BitVec.ofNat 8 d]
  | .auto sp => [2, BitVec.ofNat 8 sp]

/-- The bytes of a profile's fields, those of an absent field 0 (R185). -/
def ProfileContent.fieldBytes (c : ProfileContent) : List Byte :=
  (c.positions.toList.flatMap fun p => natBytes (p.getD 0))
    ++ (match c.lumbar with
        | some (u, l) => [BitVec.ofNat 8 u, BitVec.ofNat 8 l]
        | none => [0, 0])
    ++ (match c.heat with
        | some v => v.toList.flatMap HeatPreset.bytes
        | none => List.replicate 8 0)
    ++ (match c.massage with
        | some (p, i) => [BitVec.ofNat 8 p.val, BitVec.ofNat 8 i]
        | none => [0, 0])

/-- The 33 bytes of a profile record as PROFILE_READ returns them (R90, R185). -/
def State.profileRecord (s : State) (p : Fin 6) : List Byte :=
  let x := s.profile p
  [BitVec.ofNat 8 (p.val + 1), x.state.byte] ++ natBytes (bitsValue x.content.presence) ++ x.content.fieldBytes
    ++ [BitVec.ofNat 8 (bitsValue [x.persisted, s.profilePending p, s.profileWriting p])]

end Sys2Proof.Machine
end

