-- ==== Sys2Proof/Machine/Agenda.lean ====
section
/-! DEFINITION. The requests between blocks and the end of a step: each request is carried out by its block, depth first, then power
control and the transmitter judge the state reached (logs 4 and 6). -/

namespace Sys2Proof.Machine

/-- A start is reported to its owner (R69, R155, R164). -/
def State.reportStart (o : Owner) (a : Fin 8) (s : State) : State :=
  match o with
  | .plan => s.planStarted a
  | .brace => s.braceStarted a
  | .link | .switch | .none => s

/-- A move result is passed to its move owner (R38 step 2); a LINK result stands in the axis record already. -/
def State.reportResult (o : Owner) (a : Fin 8) (r : MoveResult) (d : Option Dir) (s : State) : State :=
  match o with
  | .plan => s.planResult a r
  | .brace => s.braceResult a r
  | .switch => s.switchResult a d
  | .link | .none => s

/-- A withdrawn entry is reported to its owner (R41). -/
def State.reportWithdrawn (e : Entry) (r : MoveResult) (s : State) : State :=
  match e.owner with
  | .plan => s.planWithdrawn e.axis r
  | .brace => s.braceWithdrawn e.axis r
  | .switch => s.switchResult e.axis e.goal.jogDir
  | .link => s.linkWithdrawn e.axis r
  | .none => s

/-- One request is carried out by the block it is made of. -/
def doWork (w : Work) (s : State) : State :=
  match w with
  | .arbiter => s.arbiter
  | .started o a => s.reportStart o a
  | .moveOver a r d => s.moveOver a r d
  | .completed a d => s.startCompleted a d
  | .result o a r d => s.reportResult o a r d
  | .settleOwner a o => s.settleOwner a o
  | .tellFree a => s.tellFree a
  | .braceFree a => s.braceFree a
  | .switchFree a => s.switchFree a
  | .planFree a => s.planFree a
  | .withdrawn e r => s.reportWithdrawn e r
  | .ownerStop o as => s.ownerStop o as
  | .release o c => s.release o c
  | .planAbort r => s.planAbort r
  | .planBegin => s.planBegin
  | .planClaim a => s.planClaim a
  | .planClaimGroup => s.planClaimGroup
  | .planCheck => s.planCheck
  | .braceRequest src => s.braceRequest src
  | .braceDecide => s.braceDecide
  | .braceClaim a => s.braceClaim a
  | .restoreClaim a => s.restoreClaim a
  | .braceRest => s.braceRest
  | .bracedNext => s.bracedNext
  | .braceCheck => s.braceCheck
  | .pressTaken c => s.pressTaken c
  | .pressAct c found => s.pressAct c found
  | .switchClaim a d => s.switchClaim a d
  | .releaseAct c => s.releaseAct c
  | .shutdownRest => s.shutdownRest

/-- Requests are carried out, the latest made first, until none is left or the fuel is spent (log 4). -/
def drain : Nat → State → State
  | 0, s => s
  | n + 1, s =>
    match s.agenda with
    | [] => s
    | w :: ws => drain n (doWork w { s with agenda := ws })

/-- The end of a step: its requests, power control's part, and the transmitter's choice. No request outlives its step: were
the fuel spent, what is left would be dropped (log 4). -/
def State.finish (s : State) : State := { ((drain Config.agendaFuel s).powerCheck).transmit with agenda := [] }

/-- What every command answers: its effect, carried through. It ends in no fault and no refusal. -/
def answer (s : State) : Host.Outcome State Fault Refusal := .next s.finish

/-- An event of a part that runs; in SLEEP or held in reset it finds nothing (log 33). -/
def event (f : State → State) (s : State) : Host.Outcome State Fault Refusal := answer (if s.live then f s else s)

/-- An event of a part that is AWAKE or SHUTTING_DOWN. -/
def upEvent (f : State → State) (s : State) : Host.Outcome State Fault Refusal := answer (if s.up then f s else s)

end Sys2Proof.Machine
end

