-- ==== Sys2Proof/Machine/HostCommands.lean ====
section
/-! DEFINITION. The meanings of the host's commands, one for each command row of spec/opcode_table.json. -/

namespace Sys2Proof.Machine

/-- A reply without data. -/
def plain (r : State × ReplyStatus) : State × Reply := (r.1, (r.2, .none))

/-- A command whose payload reads as none is answered BAD_PARAMETER with no effect (R173, R175, R185). -/
def asked {α : Type} (x : Option α) (act : α → State → State × Reply) (s : State) : State × Reply :=
  match x with
  | some a => act a s
  | none => (s, (.badParameter, .none))

/-- A host command, carried through. -/
def command (code tag : Byte) (payload : List Byte) (act : State → State × Reply) (s : State) :
    Host.Outcome State Fault Refusal :=
  answer (s.hostCommand code tag payload act)

/-- The reply data that name a plan slot taken (R64, R92). -/
def slotData : Option PlanSlot → ReplyData
  | some slot => .content (.planSlot slot)
  | none => .none

/-- The plan slot an accepted recall took. -/
def RecallAnswer.slot : RecallAnswer → Option PlanSlot
  | .accepted slot => some slot
  | .refused | .vehicleMoving | .profileEmpty | .busy => none

/-! ### Shared operations -/

/-- PATTERN_LOAD of a part (R128). -/
def State.loadPart (part : PatternPart) (s : State) : State × ReplyStatus :=
  match part with
  | .header p period time => s.loadHeader p period time
  | .mask p masks => s.loadMask p masks

/-- HALT of an axis or of all (R40). -/
def State.halt (target : Option (Fin 8)) (s : State) : State × ReplyStatus :=
  match target with
  | some a => s.haltAxis a
  | none => (s.haltAll, .done)

/-- PLAN_CANCEL of a target (R78): NEXT is emptied first, so that nothing is promoted that the command discards. -/
def State.planCancel (t : CancelTarget) (s : State) : State :=
  match t with
  | .current => s.cancelCurrent
  | .next => s.emptyNext .cancel
  | .all => (s.emptyNext .cancel).cancelCurrent

/-- CELL_SET of its entries (R125): the sets are taken in ascending cell order (R116). -/
def State.cellSet (es : List (Fin 12 × Nat)) (s : State) : State × ReplyStatus :=
  if s.power.state ≠ .awake then (s, .refused)
  else if s.brace.state ≠ .idle ∧ es.any (fun e => e.1 == 10 || e.1 == 11) then (s, .busy)
  else
    (allCells.foldl (fun t c => match es.find? (·.1 == c) with
      | some e => t.supportSet c e.2
      | none => t) s, .done)

/-- HEAT_SET of its entries, in their order (R138). -/
def State.heatSet (es : List (Fin 4 × ZoneMode)) (s : State) : State × ReplyStatus :=
  if s.power.state ≠ .awake then (s, .refused)
  else (es.foldl (fun t e => t.setMode e.1 e.2) s, .done)

/-- BRACE (R150): the reply is that of the brace state found. -/
def State.braceCommand (s : State) : State × ReplyStatus := (s.call [.braceRequest .command], s.braceReply)

/-- BRACE_RELEASE by its after-crash flag (R160, R161). -/
def State.releaseByFlag (afterCrash : Bool) (s : State) : State × ReplyStatus :=
  if afterCrash then s.releaseAfterCrash else s.braceRelease

/-- The pump current is sensed. -/
def State.sensePump (current : Nat) (s : State) : State := { s with sense.pumpCurrent := current }

/-- The supply voltage is sensed. -/
def State.senseSupply (reading : Nat) (s : State) : State := { s with sense.supply := reading }

/-- The codes of the command code table (R185). -/
def knownCodes : List Byte :=
  [0x01, 0x02, 0x03, 0x04, 0x05, 0x06, 0x10, 0x11, 0x12, 0x13, 0x20, 0x21, 0x22, 0x28, 0x29, 0x2A, 0x2B, 0x2C,
   0x30, 0x31, 0x32, 0x33, 0x34, 0x38, 0x40, 0x41, 0x42, 0x48, 0x50, 0x51]

/-! ### The meanings -/

/-- IDENTIFY (R182). -/
def execIdentify (tag : Byte) (payload : List Byte) (s : State) : Host.Outcome State Fault Refusal :=
  command 0x01 tag payload (asked (readNothing payload) fun _ t => (t, (.done, .content identity))) s

/-- STATUS (R182), with what the part senses when it makes the reply. -/
def execStatus (tag : Byte) (payload : List Byte) (sense : Sense) (s : State) : Host.Outcome State Fault Refusal :=
  command 0x02 tag payload (asked (readSelector payload) fun sel t =>
    let sensed := (t.sensePump sense.pumpCurrent).senseSupply sense.supply
    (sensed, (.done, .content (sensed.statusContent sel)))) s

/-- CONFIG_SET (R183). -/
def execConfigSet (tag : Byte) (payload : List Byte) (s : State) : Host.Outcome State Fault Refusal :=
  command 0x03 tag payload (asked (readConfigSet payload) fun x t => plain (t.configSet x.1 x.2)) s

/-- CONFIG_GET (R183). -/
def execConfigGet (tag : Byte) (payload : List Byte) (s : State) : Host.Outcome State Fault Refusal :=
  command 0x04 tag payload (asked (readConfigGet payload) fun x t => (t, (.done, .bytes (t.configReply x payload)))) s

/-- FAULT_CLEAR (R184), with the pump current at that moment. -/
def execFaultClear (tag : Byte) (payload : List Byte) (pumpCurrent : Nat) (s : State) : Host.Outcome State Fault Refusal :=
  command 0x05 tag payload (asked (readElement payload) fun e t =>
    plain ((t.sensePump pumpCurrent).clearElement e pumpCurrent)) s

/-- VEHICLE (R79). -/
def execVehicle (tag : Byte) (payload : List Byte) (s : State) : Host.Outcome State Fault Refusal :=
  command 0x06 tag payload (asked (readVehicle payload) fun v t => (t.setVehicle v, (.done, .none))) s

/-- MOVE (R33). -/
def execMove (tag : Byte) (payload : List Byte) (s : State) : Host.Outcome State Fault Refusal :=
  command 0x10 tag payload (asked (readMove payload) fun x t => plain (t.moveCommand x.1 x.2)) s

/-- JOG (R33). -/
def execJog (tag : Byte) (payload : List Byte) (s : State) : Host.Outcome State Fault Refusal :=
  command 0x11 tag payload (asked (readJog payload) fun x t => plain (t.jogCommand x.1 x.2)) s

/-- HALT (R40). -/
def execHalt (tag : Byte) (payload : List Byte) (s : State) : Host.Outcome State Fault Refusal :=
  command 0x12 tag payload (asked (readHalt payload) fun x t => plain (t.halt x)) s

/-- REFERENCE (R18). -/
def execReference (tag : Byte) (payload : List Byte) (s : State) : Host.Outcome State Fault Refusal :=
  command 0x13 tag payload (asked (readReference payload) fun a t => plain (t.referenceCommand a)) s

/-- PLAN_LOAD (R62). -/
def execPlanLoad (tag : Byte) (payload : List Byte) (s : State) : Host.Outcome State Fault Refusal :=
  command 0x20 tag payload (asked (readPlanLoad payload) fun ds t => plain (t.loadDescriptors ds)) s

/-- PLAN_RUN (R64). -/
def execPlanRun (tag : Byte) (payload : List Byte) (s : State) : Host.Outcome State Fault Refusal :=
  command 0x21 tag payload (asked (readPlanRun payload) fun x t =>
    let (run, reply, slot) := t.runPlan x.1 x.2.1 x.2.2
    (run, (reply, slotData slot))) s

/-- PLAN_CANCEL (R78). -/
def execPlanCancel (tag : Byte) (payload : List Byte) (s : State) : Host.Outcome State Fault Refusal :=
  command 0x22 tag payload (asked (readCancel payload) fun x t => (t.planCancel x, (.done, .none))) s

/-- RECALL (R92). -/
def execRecall (tag : Byte) (payload : List Byte) (s : State) : Host.Outcome State Fault Refusal :=
  command 0x28 tag payload (asked (readOneSlot payload) fun p t =>
    let (recalled, answer) := t.recall p .link
    (recalled, (answer.reply, slotData answer.slot))) s

/-- PROFILE_STORE (R85). -/
def execProfileStore (tag : Byte) (payload : List Byte) (s : State) : Host.Outcome State Fault Refusal :=
  command 0x29 tag payload (asked (readProfileStore payload) fun x t => plain (t.storeProfile x.1 x.2 .link)) s

/-- PROFILE_WRITE (R88). -/
def execProfileWrite (tag : Byte) (payload : List Byte) (s : State) : Host.Outcome State Fault Refusal :=
  command 0x2A tag payload (asked (readProfileWrite payload) fun x t => plain (t.writeProfile x.1 x.2)) s

/-- PROFILE_READ (R90). -/
def execProfileRead (tag : Byte) (payload : List Byte) (s : State) : Host.Outcome State Fault Refusal :=
  command 0x2B tag payload (asked (readOneSlot payload) fun p t => (t, (.done, .bytes (t.profileRecord p)))) s

/-- PROFILE_ERASE (R89). -/
def execProfileErase (tag : Byte) (payload : List Byte) (s : State) : Host.Outcome State Fault Refusal :=
  command 0x2C tag payload (asked (readOneSlot payload) fun p t => plain (t.eraseProfile p)) s

/-- CELL_SET (R125). -/
def execCellSet (tag : Byte) (payload : List Byte) (s : State) : Host.Outcome State Fault Refusal :=
  command 0x30 tag payload (asked (readCellSet payload) fun es t => plain (t.cellSet es)) s

/-- PATTERN_LOAD with any payload but a mask part (R128). -/
def execPatternLoadHeader (tag : Byte) (payload : List Byte) (s : State) : Host.Outcome State Fault Refusal :=
  command 0x31 tag payload (asked (readPatternPart payload) fun x t => plain (t.loadPart x)) s

/-- PATTERN_LOAD with a mask part (R128). -/
def execPatternLoadMask (tag : Byte) (payload : List Byte) (s : State) : Host.Outcome State Fault Refusal :=
  command 0x31 tag payload (asked (readPatternPart payload) fun x t => plain (t.loadPart x)) s

/-- PATTERN_SELECT (R131). -/
def execPatternSelect (tag : Byte) (payload : List Byte) (s : State) : Host.Outcome State Fault Refusal :=
  command 0x32 tag payload (asked (readPatternSlot payload) fun p t => plain (t.selectPattern p)) s

/-- MASSAGE_START (R129). -/
def execMassageStart (tag : Byte) (payload : List Byte) (s : State) : Host.Outcome State Fault Refusal :=
  command 0x33 tag payload (asked (readMassageStart payload) fun x t => plain (t.startMassage x.1 x.2)) s

/-- MASSAGE_STOP (R133). -/
def execMassageStop (tag : Byte) (payload : List Byte) (s : State) : Host.Outcome State Fault Refusal :=
  command 0x34 tag payload (asked (readNothing payload) fun _ t => (t.haltMassage .stop, (.done, .none))) s

/-- HEAT_SET (R138). -/
def execHeatSet (tag : Byte) (payload : List Byte) (s : State) : Host.Outcome State Fault Refusal :=
  command 0x38 tag payload (asked (readHeatSet payload) fun es t => plain (t.heatSet es)) s

/-- BRACE (R150). -/
def execBrace (tag : Byte) (payload : List Byte) (s : State) : Host.Outcome State Fault Refusal :=
  command 0x40 tag payload (asked (readNothing payload) fun _ t => plain t.braceCommand) s

/-- BRACE_HOLD (R162). -/
def execBraceHold (tag : Byte) (payload : List Byte) (s : State) : Host.Outcome State Fault Refusal :=
  command 0x41 tag payload (asked (readNothing payload) fun _ t => plain t.braceHold) s

/-- BRACE_RELEASE with any payload but the after-crash flag set (R160). -/
def execBraceRelease (tag : Byte) (payload : List Byte) (s : State) : Host.Outcome State Fault Refusal :=
  command 0x42 tag payload (asked (readFlag payload) fun b t => plain (t.releaseByFlag b)) s

/-- BRACE_RELEASE with the after-crash flag (R161). -/
def execBraceReleaseAfterCrash (tag : Byte) (s : State) : Host.Outcome State Fault Refusal :=
  command 0x42 tag [1] (fun t => plain t.releaseAfterCrash) s

/-- SUPPLY_LIMIT (R45). -/
def execSupplyLimit (tag : Byte) (payload : List Byte) (s : State) : Host.Outcome State Fault Refusal :=
  command 0x48 tag payload (asked (readLimit payload) fun v t => plain (t.setLimit v)) s

/-- SHUTDOWN (R190). -/
def execShutdown (tag : Byte) (payload : List Byte) (s : State) : Host.Outcome State Fault Refusal :=
  command 0x50 tag payload (asked (readNothing payload) fun _ t => plain t.shutdown) s

/-- RESTART (R189): the reset is taken when the reply has been sent. -/
def execRestart (tag : Byte) (payload : List Byte) (s : State) : Host.Outcome State Fault Refusal :=
  command 0x51 tag payload (asked (readNothing payload) fun _ t =>
    ({ t with link.restartDue := true }, (.done, .none))) s

/-- A command whose code is not in the command code table (R173). -/
def execUnknownCode (code tag : Byte) (payload : List Byte) (s : State) : Host.Outcome State Fault Refusal :=
  if knownCodes.contains code then answer s
  else command code tag payload (fun t => (t, (.unknown, .none))) s

end Sys2Proof.Machine
end

