-- ==== Sys2Proof/Machine/Events.lean ====
section
/-! DEFINITION. The meanings of the events: the link's own, the seat's and its sensors', the timers', the switch pack's, the brace
line's and power control's. An expiry is the event itself: it does not depend on the counter that the tick moves (log 5). -/

namespace Sys2Proof.Machine

/-! ### Seat link -/

/-- FRAME_RECEIVED (R172). -/
def execFrameReceived (frame : List Byte) (s : State) : Host.Outcome State Fault Refusal := answer (s.frameReceived frame)

/-- BYTE_ERROR (R171). -/
def execByteError (s : State) : Host.Outcome State Fault Refusal := answer s.byteError

/-- FRAME_GAP (R171). -/
def execFrameGap (s : State) : Host.Outcome State Fault Refusal := answer s.frameGap

/-- BREAK (R179). -/
def execLineBreak (s : State) : Host.Outcome State Fault Refusal := answer s.lineBreak

/-- BREAK_END (R179). -/
def execBreakEnd (s : State) : Host.Outcome State Fault Refusal := answer s.breakEnd

/-- FRAME_SENT (R177). -/
def execFrameSent (s : State) : Host.Outcome State Fault Refusal := event State.frameSent s

/-- SILENCE_TIMER_EXPIRY (R180). -/
def execSilenceTimerExpiry (s : State) : Host.Outcome State Fault Refusal := answer s.silenceExpiry

/-- WAKE_DISCARD_END (R191). -/
def execWakeDiscardEnd (s : State) : Host.Outcome State Fault Refusal := answer s.wakeDiscardEnd

/-- BYTE_RECEIVED (R171). -/
def execByteReceived (b : Byte) (s : State) : Host.Outcome State Fault Refusal := answer (s.byteReceived b)

/-- LINK_ACTIVITY (R191). -/
def execLinkActivity (s : State) : Host.Outcome State Fault Refusal := answer s.linkActivity

/-! ### Axes -/

/-- HALL_EDGE (R3). -/
def execHallEdge (a : Fin 8) (s : State) : Host.Outcome State Fault Refusal := event (State.hallEdge a) s

/-- STALL (R13). -/
def execStall (a : Fin 8) (s : State) : Host.Outcome State Fault Refusal := event (State.stall a) s

/-- SETTLE (R8). -/
def execSettle (a : Fin 8) (s : State) : Host.Outcome State Fault Refusal := event (State.settle a) s

/-- OVERCURRENT_TRIP (R15). -/
def execOvercurrentTrip (a : Fin 8) (s : State) : Host.Outcome State Fault Refusal := event (State.trip a) s

/-- LEG_LIMIT (R21). -/
def execLegLimit (a : Fin 8) (s : State) : Host.Outcome State Fault Refusal := event (State.legLimit a) s

/-! ### Supply -/

/-- Thresholds of the supply state, in 0.1 V (R55). -/
def lowBelow : Nat := 90
def normalAbove : Nat := 95

/-- SUPPLY_LOW (R56): a reading below 9.0 V has completed the 100 ms. -/
def execSupplyLow (reading : Nat) (s : State) : Host.Outcome State Fault Refusal :=
  event (fun t => if reading < lowBelow then (t.senseSupply reading).enterLow else t.senseSupply reading) s

/-- SUPPLY_NORMAL (R55): a reading above 9.5 V has completed the 100 ms. -/
def execSupplyNormal (reading : Nat) (s : State) : Host.Outcome State Fault Refusal :=
  event (fun t => if normalAbove < reading then (t.senseSupply reading).leaveLow else t.senseSupply reading) s

/-! ### Plans and retained records -/

/-- PAUSE_EXPIRY (R70). -/
def execPauseExpiry (s : State) : Host.Outcome State Fault Refusal := event State.pauseExpiry s

/-- RETAINED_WRITE_END (R187). -/
def execRetainedWriteEnd (s : State) : Host.Outcome State Fault Refusal := event State.endWrite s

/-! ### Switch pack -/

/-- AXIS_CONTACT_PRESS (R105). -/
def execAxisContactPress (a : Fin 8) (d : Dir) (s : State) : Host.Outcome State Fault Refusal := answer (s.press (.axis a d))

/-- SET_PRESS (R110). -/
def execSetPress (s : State) : Host.Outcome State Fault Refusal := answer (s.press .set)

/-- MEMORY_BUTTON_PRESS (R111). -/
def execMemoryButtonPress (m : Fin 3) (s : State) : Host.Outcome State Fault Refusal := answer (s.press (.mem m))

/-- CONTACT_RELEASE (R106). -/
def execContactRelease (c : Contact) (s : State) : Host.Outcome State Fault Refusal := answer (s.releaseContact c)

/-- STORE_WINDOW_EXPIRY (R110). -/
def execStoreWindowExpiry (s : State) : Host.Outcome State Fault Refusal := event State.windowExpiry s

/-! ### Cells and massage -/

/-- PRESSURE_READING (R117), in half-kPa. -/
def execPressureReading (c : Fin 12) (reading : Nat) (s : State) : Host.Outcome State Fault Refusal :=
  event (State.pressureReading c reading) s

/-- LEAK (R123). -/
def execLeak (c : Fin 12) (s : State) : Host.Outcome State Fault Refusal := event (State.leak c) s

/-- PUMP_OVERCURRENT (R122), with the current in 0.1 A. -/
def execPumpOvercurrent (current : Nat) (s : State) : Host.Outcome State Fault Refusal :=
  event (fun t => (t.sensePump current).pumpTrip current) s

/-- PUMP_REST_DUE (R121). -/
def execPumpRestDue (s : State) : Host.Outcome State Fault Refusal := event State.pumpRestDue s

/-- PUMP_REST_END (R121). -/
def execPumpRestEnd (s : State) : Host.Outcome State Fault Refusal := event State.pumpRestEnd s

/-- STEP_TIMER_EXPIRY (R130). -/
def execStepTimerExpiry (s : State) : Host.Outcome State Fault Refusal := event State.stepTimerExpiry s

/-- SESSION_TIMER_EXPIRY (R132). -/
def execSessionTimerExpiry (s : State) : Host.Outcome State Fault Refusal := event State.sessionExpiry s

/-! ### Heat -/

/-- TEMPERATURE_READING (R137), in hundredths of a degree. -/
def execTemperatureReading (z : Fin 4) (reading : Int) (s : State) : Host.Outcome State Fault Refusal :=
  event (State.temperatureReading z reading) s

/-- PWM_PERIOD_START (R142). -/
def execPwmPeriodStart (z : Fin 4) (s : State) : Host.Outcome State Fault Refusal := upEvent (State.periodStart z) s

/-- PWM_ON_TIME_END (R142). -/
def execPwmOnTimeEnd (z : Fin 4) (s : State) : Host.Outcome State Fault Refusal := upEvent (State.onTimeEnd z) s

/-- BOOST_EXPIRY (R140). -/
def execBoostExpiry (z : Fin 4) (s : State) : Host.Outcome State Fault Refusal := upEvent (State.endBoost z) s

/-! ### Brace -/

/-- BRACE_LINE_ACTIVATION (R150). -/
def execBraceLineActivation (s : State) : Host.Outcome State Fault Refusal := answer s.lineActivation

/-- BRACE_LINE_INACTIVE (R150). -/
def execBraceLineInactive (s : State) : Host.Outcome State Fault Refusal := answer s.lineInactive

/-- DEADLINE_EXPIRY (R157). -/
def execDeadlineExpiry (s : State) : Host.Outcome State Fault Refusal := event State.deadlineExpiry s

/-- HOLD_TIMER_EXPIRY (R163). -/
def execHoldTimerExpiry (s : State) : Host.Outcome State Fault Refusal := event State.holdExpiry s

/-- ACK_PULSE_END (R168). -/
def execAckPulseEnd (s : State) : Host.Outcome State Fault Refusal := event State.ackPulseEnd s

/-! ### Power -/

/-- POWER_ON (R189). -/
def execPowerOn (s : State) : Host.Outcome State Fault Refusal := answer (s.takeReset .powerOn s.power.held)

/-- RESET_PIN (R189): low holds the part in reset; released, STARTING begins. -/
def execResetPin (edge : PinEdge) (s : State) : Host.Outcome State Fault Refusal :=
  match edge with
  | .low => answer (s.takeReset .resetPin true)
  | .released => answer (s.takeReset .resetPin false)

/-- STARTING_END (R189). -/
def execStartingEnd (s : State) : Host.Outcome State Fault Refusal := answer s.startingEnd

/-- WAKE (R191). -/
def execWake (s : State) : Host.Outcome State Fault Refusal := answer s.wakeUp

end Sys2Proof.Machine
end

