-- ==== Sys2Proof/Machine/Dispatch.lean ====
section
/-! DEFINITION. The meaning of every command, one arm for each constructor of Instr. -/

namespace Sys2Proof.Machine

def exec (i : Instr) (s : State) : Host.Outcome State Fault Refusal :=
  match i with
  | .identify tag payload => Sys2Proof.Machine.execIdentify tag payload s
  | .status tag payload sense => Sys2Proof.Machine.execStatus tag payload sense s
  | .configSet tag payload => Sys2Proof.Machine.execConfigSet tag payload s
  | .configGet tag payload => Sys2Proof.Machine.execConfigGet tag payload s
  | .faultClear tag payload pumpCurrent => Sys2Proof.Machine.execFaultClear tag payload pumpCurrent s
  | .vehicle tag payload => Sys2Proof.Machine.execVehicle tag payload s
  | .move tag payload => Sys2Proof.Machine.execMove tag payload s
  | .jog tag payload => Sys2Proof.Machine.execJog tag payload s
  | .halt tag payload => Sys2Proof.Machine.execHalt tag payload s
  | .reference tag payload => Sys2Proof.Machine.execReference tag payload s
  | .planLoad tag payload => Sys2Proof.Machine.execPlanLoad tag payload s
  | .planRun tag payload => Sys2Proof.Machine.execPlanRun tag payload s
  | .planCancel tag payload => Sys2Proof.Machine.execPlanCancel tag payload s
  | .recall tag payload => Sys2Proof.Machine.execRecall tag payload s
  | .profileStore tag payload => Sys2Proof.Machine.execProfileStore tag payload s
  | .profileWrite tag payload => Sys2Proof.Machine.execProfileWrite tag payload s
  | .profileRead tag payload => Sys2Proof.Machine.execProfileRead tag payload s
  | .profileErase tag payload => Sys2Proof.Machine.execProfileErase tag payload s
  | .cellSet tag payload => Sys2Proof.Machine.execCellSet tag payload s
  | .patternLoadHeader tag payload => Sys2Proof.Machine.execPatternLoadHeader tag payload s
  | .patternLoadMask tag payload => Sys2Proof.Machine.execPatternLoadMask tag payload s
  | .patternSelect tag payload => Sys2Proof.Machine.execPatternSelect tag payload s
  | .massageStart tag payload => Sys2Proof.Machine.execMassageStart tag payload s
  | .massageStop tag payload => Sys2Proof.Machine.execMassageStop tag payload s
  | .heatSet tag payload => Sys2Proof.Machine.execHeatSet tag payload s
  | .brace tag payload => Sys2Proof.Machine.execBrace tag payload s
  | .braceHold tag payload => Sys2Proof.Machine.execBraceHold tag payload s
  | .braceRelease tag payload => Sys2Proof.Machine.execBraceRelease tag payload s
  | .braceReleaseAfterCrash tag => Sys2Proof.Machine.execBraceReleaseAfterCrash tag s
  | .supplyLimit tag payload => Sys2Proof.Machine.execSupplyLimit tag payload s
  | .shutdown tag payload => Sys2Proof.Machine.execShutdown tag payload s
  | .restart tag payload => Sys2Proof.Machine.execRestart tag payload s
  | .unknownCode code tag payload => Sys2Proof.Machine.execUnknownCode code tag payload s
  | .frameReceived frame => Sys2Proof.Machine.execFrameReceived frame s
  | .byteError => Sys2Proof.Machine.execByteError s
  | .frameGap => Sys2Proof.Machine.execFrameGap s
  | .lineBreak => Sys2Proof.Machine.execLineBreak s
  | .frameSent => Sys2Proof.Machine.execFrameSent s
  | .silenceTimerExpiry => Sys2Proof.Machine.execSilenceTimerExpiry s
  | .wakeDiscardEnd => Sys2Proof.Machine.execWakeDiscardEnd s
  | .hallEdge a => Sys2Proof.Machine.execHallEdge a s
  | .stall a => Sys2Proof.Machine.execStall a s
  | .settle a => Sys2Proof.Machine.execSettle a s
  | .overcurrentTrip a => Sys2Proof.Machine.execOvercurrentTrip a s
  | .legLimit a => Sys2Proof.Machine.execLegLimit a s
  | .supplyLow reading => Sys2Proof.Machine.execSupplyLow reading s
  | .supplyNormal reading => Sys2Proof.Machine.execSupplyNormal reading s
  | .pauseExpiry => Sys2Proof.Machine.execPauseExpiry s
  | .retainedWriteEnd => Sys2Proof.Machine.execRetainedWriteEnd s
  | .axisContactPress a d => Sys2Proof.Machine.execAxisContactPress a d s
  | .setPress => Sys2Proof.Machine.execSetPress s
  | .memoryButtonPress m => Sys2Proof.Machine.execMemoryButtonPress m s
  | .contactRelease c => Sys2Proof.Machine.execContactRelease c s
  | .storeWindowExpiry => Sys2Proof.Machine.execStoreWindowExpiry s
  | .pressureReading c reading => Sys2Proof.Machine.execPressureReading c reading s
  | .leak c => Sys2Proof.Machine.execLeak c s
  | .pumpOvercurrent current => Sys2Proof.Machine.execPumpOvercurrent current s
  | .pumpRestDue => Sys2Proof.Machine.execPumpRestDue s
  | .pumpRestEnd => Sys2Proof.Machine.execPumpRestEnd s
  | .stepTimerExpiry => Sys2Proof.Machine.execStepTimerExpiry s
  | .sessionTimerExpiry => Sys2Proof.Machine.execSessionTimerExpiry s
  | .temperatureReading z reading => Sys2Proof.Machine.execTemperatureReading z reading s
  | .pwmPeriodStart z => Sys2Proof.Machine.execPwmPeriodStart z s
  | .pwmOnTimeEnd z => Sys2Proof.Machine.execPwmOnTimeEnd z s
  | .boostExpiry z => Sys2Proof.Machine.execBoostExpiry z s
  | .braceLineActivation => Sys2Proof.Machine.execBraceLineActivation s
  | .braceLineInactive => Sys2Proof.Machine.execBraceLineInactive s
  | .deadlineExpiry => Sys2Proof.Machine.execDeadlineExpiry s
  | .holdTimerExpiry => Sys2Proof.Machine.execHoldTimerExpiry s
  | .ackPulseEnd => Sys2Proof.Machine.execAckPulseEnd s
  | .powerOn => Sys2Proof.Machine.execPowerOn s
  | .resetPin edge => Sys2Proof.Machine.execResetPin edge s
  | .startingEnd => Sys2Proof.Machine.execStartingEnd s
  | .linkActivity => Sys2Proof.Machine.execLinkActivity s
  | .wake => Sys2Proof.Machine.execWake s
  | .byteReceived b => Sys2Proof.Machine.execByteReceived b s
  | .breakEnd => Sys2Proof.Machine.execBreakEnd s

end Sys2Proof.Machine
end

