-- ==== Sys2Proof/Machine/Time.lean ====
section
/-! DEFINITION. The tick of 1 ms that a step on an empty queue is: the counters move, and nothing fires, for every expiry is a command
of its own (logs 1 and 5). -/

namespace Sys2Proof.Machine

/-- A time left, one millisecond later. -/
def countDown (t : Option Nat) : Option Nat := t.map (· - 1)

/-- The time a leg may take (R19); an axis's times are not counted further. -/
def axisTimeMax : Nat := 20000

/-- An axis's timers (R7, R13, R19). -/
def Axis.tick (x : Axis) : Axis :=
  match x.activity with
  | .running => { x with driveTime := min (x.driveTime + 1) axisTimeMax, edgeTime := min (x.edgeTime + 1) axisTimeMax }
  | .stopping => { x with settleLeft := countDown x.settleLeft }
  | .idle | .faulted => x

/-- The pump's run time, and the time since it last ran; 30 s without running set the run time to 0, but the end of a rest is a
command (R121). -/
def CellUnit.tick (u : CellUnit) : CellUnit :=
  if u.pump = .running then
    { u with
      runTime := u.runTime + 1
      cells := Vector.ofFn fun c =>
        if u.queue.head? = some c then { u.cells[c] with fillTime := min (u.cells[c].fillTime + 1) Config.leakMs } else u.cells[c] }
  else
    let off := min (u.offTime + 1) Config.restMs
    { u with offTime := off, runTime := if off = Config.restMs ∧ u.pump ≠ .resting then 0 else u.runTime }

/-- A zone's timers (R140, R142). -/
def Zone.tick (z : Zone) : Zone :=
  { z with boostLeft := countDown z.boostLeft, periodTime := z.periodTime.map fun t => min (t + 1) (Config.periodMs - 1) }

/-- One millisecond of a part that runs. -/
def State.tickLive (s : State) : State :=
  { s with
    axes := s.axes.map Axis.tick
    plans := { s.plans with current := s.plans.current.map fun p => { p with pauseLeft := countDown p.pauseLeft } }
    switches := { s.switches with window := countDown s.switches.window }
    cells := s.cells.tick
    massage := { s.massage with stepLeft := countDown s.massage.stepLeft, sessionLeft := countDown s.massage.sessionLeft }
    zones := s.zones.map Zone.tick
    brace := { s.brace with
      deadlineLeft := countDown s.brace.deadlineLeft
      holdLeft := countDown s.brace.holdLeft
      ackPulse := countDown s.brace.ackPulse }
    link := { s.link with
      silenceLeft := countDown s.link.silenceLeft
      gap := match s.link.receiver with
        | .inFrame _ => s.link.gap + 1
        | .hunting => s.link.gap } }

/-- One millisecond: nothing counts in SLEEP or held in reset (log 1). -/
def State.tick (s : State) : State := if s.live then s.tickLive else s

end Sys2Proof.Machine
end

