-- ==== Sys2Proof/WellFormed.lean ====
section
/-! DEFINITION. Which commands are well formed: what the surroundings can send. `exec` gives every command a meaning, well formed or
not. -/

namespace Sys2Proof

/-- A host command's code in the command code table (R185); none for an event. -/
def Instr.code : Instr → Option Byte
  | .identify _ _ => some 0x01 | .status _ _ _ => some 0x02 | .configSet _ _ => some 0x03 | .configGet _ _ => some 0x04
  | .faultClear _ _ _ => some 0x05 | .vehicle _ _ => some 0x06 | .move _ _ => some 0x10 | .jog _ _ => some 0x11
  | .halt _ _ => some 0x12 | .reference _ _ => some 0x13 | .planLoad _ _ => some 0x20 | .planRun _ _ => some 0x21
  | .planCancel _ _ => some 0x22 | .recall _ _ => some 0x28 | .profileStore _ _ => some 0x29 | .profileWrite _ _ => some 0x2A
  | .profileRead _ _ => some 0x2B | .profileErase _ _ => some 0x2C | .cellSet _ _ => some 0x30
  | .patternLoadHeader _ _ => some 0x31 | .patternLoadMask _ _ => some 0x31 | .patternSelect _ _ => some 0x32
  | .massageStart _ _ => some 0x33 | .massageStop _ _ => some 0x34 | .heatSet _ _ => some 0x38 | .brace _ _ => some 0x40
  | .braceHold _ _ => some 0x41 | .braceRelease _ _ => some 0x42 | .braceReleaseAfterCrash _ => some 0x42
  | .supplyLimit _ _ => some 0x48 | .shutdown _ _ => some 0x50 | .restart _ _ => some 0x51
  | .unknownCode code _ _ => some code
  | _ => none

/-- A host command's tag; 0 for an event. -/
def Instr.tag : Instr → Byte
  | .identify t _ | .status t _ _ | .configSet t _ | .configGet t _ | .faultClear t _ _ | .vehicle t _ | .move t _ | .jog t _
  | .halt t _ | .reference t _ | .planLoad t _ | .planRun t _ | .planCancel t _ | .recall t _ | .profileStore t _
  | .profileWrite t _ | .profileRead t _ | .profileErase t _ | .cellSet t _ | .patternLoadHeader t _ | .patternLoadMask t _
  | .patternSelect t _ | .massageStart t _ | .massageStop t _ | .heatSet t _ | .brace t _ | .braceHold t _ | .braceRelease t _
  | .braceReleaseAfterCrash t | .supplyLimit t _ | .shutdown t _ | .restart t _ | .unknownCode _ t _ => t
  | _ => 0

/-- A host command's payload; none for an event. -/
def Instr.payload : Instr → List Byte
  | .identify _ p | .status _ p _ | .configSet _ p | .configGet _ p | .faultClear _ p _ | .vehicle _ p | .move _ p | .jog _ p
  | .halt _ p | .reference _ p | .planLoad _ p | .planRun _ p | .planCancel _ p | .recall _ p | .profileStore _ p
  | .profileWrite _ p | .profileRead _ p | .profileErase _ p | .cellSet _ p | .patternLoadHeader _ p | .patternLoadMask _ p
  | .patternSelect _ p | .massageStart _ p | .massageStop _ p | .heatSet _ p | .brace _ p | .braceHold _ p | .braceRelease _ p
  | .supplyLimit _ p | .shutdown _ p | .restart _ p | .unknownCode _ _ p => p
  | .braceReleaseAfterCrash _ => [1]
  | _ => []

/-- Whether a PATTERN_LOAD payload is a mask part (R128, R185). -/
def isMaskPart (p : List Byte) : Bool := p.length == 18 && p.getD 1 0 == 1

/-- A complete frame has as many bytes as its length byte says, which is 3 to 64 (R171). -/
def frameComplete (frame : List Byte) : Bool :=
  match frame with
  | n :: rest => decide (3 ≤ n.toNat) && decide (n.toNat ≤ 64) && rest.length == n.toNat + 2
  | [] => false

/-- What a command's own row asks of its operands: the part of PATTERN_LOAD and BRACE_RELEASE it stands for, a code outside the
table, a whole frame, and a reading on its event's side of the threshold. -/
def Instr.operandsFit : Instr → Bool
  | .patternLoadHeader _ p => !isMaskPart p
  | .patternLoadMask _ p => isMaskPart p
  | .braceRelease _ p => p != [1]
  | .unknownCode code _ _ => !Machine.knownCodes.contains code
  | .frameReceived frame => frameComplete frame
  | .supplyLow reading => decide (reading < 90)
  | .supplyNormal reading => decide (95 < reading)
  | .pumpOvercurrent current => decide (Config.pumpTrip < current)
  | _ => true

/-- A well-formed command: a payload that fits in a frame, and operands that fit the command's row. -/
def Instr.wf (i : Instr) : Bool := decide (i.payload.length ≤ Config.maxPayload) && i.operandsFit

end Sys2Proof
end

