-- ==== Sys2Proof/Safety.lean ====
section
/-! DEFINITION. What the statements speak in: states ready for a command, what a step leaves as it was, and the invariants of the
part. -/

namespace Sys2Proof.Machine

/-! ### States -/

/-- Between two steps, in AWAKE and not held in reset. -/
abbrev State.atEase (s : State) : Prop := s.agenda = [] ∧ s.power.state = .awake ∧ s.power.held = false

/-- At ease, the receiver taking frames and the command slot EMPTY: a command that arrives is taken. -/
abbrev State.awaits (s : State) : Prop :=
  s.atEase ∧ s.link.discarding = false ∧ s.link.lineLow = false ∧ s.link.slot = .empty

/-- Nothing is under way that an event could set going: no queued start, no HELD claimant, no plan, no brace. -/
abbrev State.unclaimed (s : State) : Prop :=
  s.claims.queue = [] ∧ (∀ a : Fin 8, s.claims.held[a] = ⟨false, false, false⟩) ∧ s.plans.current = none ∧ s.brace.state = .idle

/-! ### What a step leaves -/

/-- The link is as before but for what it is about to send: the replies owed, the pending notices and the frame being sent. -/
abbrev Link.carriesOn (before after : Link) : Prop :=
  after = { before with owed := after.owed, sending := after.sending, pendingNotices := after.pendingNotices }

/-- The link is as before but for what it is about to send, the command that has come and been answered, and what its arrival
does: the receiver and the silence watch (R173, R180). -/
abbrev Link.answered (before : Link) (c : Command) (status : ReplyStatus) (data : ReplyData) (after : Link) : Prop :=
  after = { before with
    owed := after.owed, sending := after.sending, pendingNotices := after.pendingNotices
    slot := .replied c status data, receiver := .hunting, hostSilent := false
    silenceLeft := if before.silenceTime = 0 then none else some (before.silenceTime * 1000) }

/-! ### Configuration -/

/-- Every configuration item of the part, with the budget limit (R23, R45, R58, R132, R143, R151, R180). -/
structure Settings where
  axes : Vector AxisConfig 8
  limit : Nat
  pumpRated : Nat
  zoneRated : Vector Nat 4
  maxDuty : Vector Nat 4
  pressures : Vector Nat 5
  sessionLength : Nat
  deadline : Nat
  holdTime : Nat
  bolsterPressure : Nat
  ackMode : AckMode
  silenceTime : Nat
  deriving DecidableEq, Repr

/-- The configuration of a state. -/
def State.settings (s : State) : Settings where
  axes := s.axes.map (·.cfg)
  limit := s.gov.limit
  pumpRated := s.gov.pumpRated
  zoneRated := s.gov.zoneRated
  maxDuty := s.zones.map (·.maxDuty)
  pressures := s.massage.pressures
  sessionLength := s.massage.sessionLength
  deadline := s.brace.deadline
  holdTime := s.brace.holdTime
  bolsterPressure := s.brace.bolsterPressure
  ackMode := s.brace.ackMode
  silenceTime := s.link.silenceTime

/-- The ranges of an axis's items (R23). -/
abbrev AxisConfig.inRange (c : AxisConfig) : Prop :=
  (2 ≤ c.ratedUnits ∧ c.ratedUnits ≤ 30) ∧ (20 ≤ c.stallWindow ∧ c.stallWindow ≤ 250) ∧ c.coastLead ≤ 32
    ∧ (2 ≤ c.tolerance ∧ c.tolerance ≤ 32) ∧ (4 ≤ c.margin ∧ c.margin ≤ 64)
    ∧ ∀ p, c.braceTarget = .absolute p → p ≤ 8191

/-- The ranges of all items, with the brace sum within the budget limit and at most three brace axes (R23, R45, R58, R132,
R143, R151, R180). -/
def State.settingsInRange (s : State) : Prop :=
  (∀ a : Fin 8, (s.axis a).cfg.inRange)
    ∧ (10 ≤ s.gov.limit ∧ s.gov.limit ≤ 60) ∧ braceSum s.axes ≤ s.gov.limit ∧ braceAxisCount s.axes ≤ 3
    ∧ (2 ≤ s.gov.pumpRated ∧ s.gov.pumpRated ≤ 20) ∧ (∀ z : Fin 4, 2 ≤ s.gov.zoneRated[z] ∧ s.gov.zoneRated[z] ≤ 20)
    ∧ (∀ z : Fin 4, 10 ≤ (s.zone z).maxDuty ∧ (s.zone z).maxDuty ≤ 100)
    ∧ (∀ i : Fin 5, 4 ≤ s.massage.pressures[i] ∧ s.massage.pressures[i] ≤ 120)
    ∧ (1 ≤ s.massage.sessionLength ∧ s.massage.sessionLength ≤ 60)
    ∧ (200 ≤ s.brace.deadline ∧ s.brace.deadline ≤ 1500) ∧ (2 ≤ s.brace.holdTime ∧ s.brace.holdTime ≤ 30)
    ∧ (20 ≤ s.brace.bolsterPressure ∧ s.brace.bolsterPressure ≤ 120)
    ∧ (s.link.silenceTime ≠ 1 ∧ s.link.silenceTime ≤ 60)

/-! ### Invariants -/

/-- How many drive slots an axis holds. -/
def State.slotCount (s : State) (a : Fin 8) : Nat :=
  (s.claims.slots.toList.filter fun x => x.any (·.axis == a)).length

/-- The drive slots and the start queue are sound (R27, R28): an axis that is RUNNING or STOPPING holds exactly one slot, no axis
holds two, and the queue holds each axis at most once. -/
def State.slotsSound (s : State) : Prop :=
  (∀ a : Fin 8, s.slotCount a ≤ 1 ∧ ((s.axis a).moving = true → s.slotCount a = 1)) ∧ (s.claims.queue.map (·.axis)).Nodup

/-- The budget is kept (R46 to R49): the motors and the pump stay within the limit, a pump that holds a grant is RUNNING, every
ceiling is the one of R48, every applied duty the lesser of what is wanted and the ceiling, and the granted sum is within the
limit. -/
def State.budgetKept (s : State) : Prop :=
  s.motorUnits + s.gov.pumpGrant ≤ s.gov.limit
    ∧ (s.gov.pumpGrant ≠ 0 → s.cells.pump = .running)
    ∧ s.zones.toList.map (·.ceiling) = s.ceilingsFrom s.residual
    ∧ (∀ z : Fin 4, (s.zone z).applied = min (s.zone z).wanted (s.zone z).ceiling)
    ∧ s.grantedSum ≤ s.gov.limit

/-- The positions a parking record or image may carry. -/
def ParkingRecord.inRange (r : ParkingRecord) : Prop := ∀ a : Fin 8, r.axes[a].position ≤ 8191

/-- Whether a parking area holds positions in range. -/
def Area.parkingInRange : Area ParkingRecord → Prop
  | .good r => r.inRange
  | .blank | .otherFormat | .torn => True

/-- The measured values stay in their ranges (R1, R115, R136): positions, on the axes and in the parking record, its write and
its image, cell pressures, and temperatures in half-degree steps. -/
def State.measuresInRange (s : State) : Prop :=
  (∀ a : Fin 8, (s.axis a).position ≤ 8191) ∧ s.store.parkingArea.parkingInRange ∧ s.store.parkingNext.inRange
    ∧ (∀ r, s.store.job = some (.parking r) → r.inRange)
    ∧ (∀ c : Fin 12, (s.cell c).pressure ≤ 120)
    ∧ (∀ z : Fin 4, ∀ t, (s.zone z).temperature = some t → -80 ≤ t ∧ t ≤ 240)

end Sys2Proof.Machine
end

