-- ==== Sys2Proof/Certificates/Slice0/Obligations.lean ====
section
/-! DEFINITION. The statements for the provers. Each is about `exec` or `step`; what a statement reads off the spec beside them (a
reply table, the record an event leaves) is written out in the namespace `Sys2Proof.Spec`. -/

open Sys2Proof Sys2Proof.Machine

namespace Sys2Proof.Spec

/-! ### Axes -/

/-- The position one edge on, within 0 to 8191 (R3). -/
def countedOn (d : Dir) (p : Nat) : Nat :=
  match d with
  | .plus => if p < 8191 then p + 1 else 8191
  | .minus => if p = 0 then 0 else p - 1

/-- The distance of two positions. -/
def apart (p q : Nat) : Nat := if p ≤ q then q - p else p - q

/-- An axis whose drive has ended: braked, STOPPING, the settle timer of 30 ms started. -/
def braked (e : DriveEnd) (m : Move) (x : Axis) : Axis :=
  { x with activity := .stopping, bridge := .braked, settleLeft := some 30, move := some { m with ended := some e } }

/-- An axis at the beginning of a drive: driven in a direction, RUNNING, the timers of the drive at 0. -/
def driving (d : Dir) (m : Move) (x : Axis) : Axis :=
  { x with
    activity := .running, bridge := .driven, direction := d, settleLeft := none, driveTime := 0, edgeTime := 0
    move := some { m with ended := none } }

/-- An axis at rest after a move with a result. -/
def rested (act : Activity) (r : MoveResult) (x : Axis) : Axis :=
  { x with activity := act, bridge := .off, settleLeft := none, move := none, lastResult := some r }


end Sys2Proof.Spec

/-! ### Switches -/

/-- The press of a contact, as its command. -/
def Spec.pressOf : Contact → Instr
  | .axis a d => .axisContactPress a d
  | .set => .setPress
  | .mem m => .memoryButtonPress m

/-- The scanner's record with one contact's record replaced. -/
def Spec.withContact (c : Contact) (r : ContactRec) (w : Switches) : Switches :=
  { w with contacts := w.contacts.set (contactIndex c) r }

/-- The scanner's record with one pair's record replaced. -/
def Spec.withPair (a : Fin 8) (p : PairRec) (w : Switches) : Switches := { w with pairs := w.pairs.set a p }

/-! ### The queue of commands -/

/-- A step takes the command at the front of the queue and executes it on the queue's rest. -/
def Obligations.FrontCommandIsExecuted : Prop :=
  ∀ (c : Instr) (rest : List Instr) (s : State), step { s with pending := c :: rest } = exec c { s with pending := rest }

/-- On an empty queue a step lets a millisecond pass: only times that are counted change (log 1, the model's choice), and in SLEEP
or held in reset nothing does. -/
def Obligations.EmptyQueueOnlyCountsTime : Prop :=
  ∀ s : State, s.pending = [] →
    ∃ t, step s = .next t
      ∧ t = { s with
          axes := t.axes, plans := { s.plans with current := t.plans.current }, switches := { s.switches with window := t.switches.window }
          cells := { s.cells with cells := t.cells.cells, runTime := t.cells.runTime, offTime := t.cells.offTime }, zones := t.zones
          massage := { s.massage with stepLeft := t.massage.stepLeft, sessionLeft := t.massage.sessionLeft }
          brace := { s.brace with
            deadlineLeft := t.brace.deadlineLeft, holdLeft := t.brace.holdLeft, ackPulse := t.brace.ackPulse }
          link := { s.link with silenceLeft := t.link.silenceLeft, gap := t.link.gap } }
      ∧ (s.live = false → t = s)
      ∧ (∀ a : Fin 8, t.axis a = { s.axis a with
          settleLeft := (t.axis a).settleLeft, driveTime := (t.axis a).driveTime, edgeTime := (t.axis a).edgeTime })
      ∧ (∀ c : Fin 12, t.cell c = { s.cell c with fillTime := (t.cell c).fillTime })
      ∧ (∀ z : Fin 4, t.zone z = { s.zone z with boostLeft := (t.zone z).boostLeft, periodTime := (t.zone z).periodTime })
      ∧ (∀ p, s.plans.current = some p → ∃ left, t.plans.current = some { p with pauseLeft := left })
      ∧ (s.plans.current = none → t.plans.current = none)

/-- Every command answers a next state, with the commands waiting as they waited (R173). That no request between blocks is left
open in it is how the model ends a step: it drops what would be left after the last request it carries out (log 4, the model's
choice). -/
def Obligations.EveryCommandAnswersANextState : Prop :=
  ∀ (c : Instr) (s : State), ∃ t, exec c s = .next t ∧ t.agenda = [] ∧ t.pending = s.pending

/-! ### Reset -/

/-- The values after reset that the rules give (R1, R23, R26 to R28, R45, R46, R58, R61, R63, R79, R110, R118, R127, R129, R132,
R136, R143, R151, R152, R171, R173, R176, R180, R189). -/
def Obligations.ResetValues : Prop :=
  (∀ a : Fin 8,
      (State.reset.axis a).referenced = false ∧ (State.reset.axis a).activity = .idle ∧ (State.reset.axis a).position = 0
        ∧ (State.reset.axis a).travel = none ∧ (State.reset.axis a).limits = none ∧ (State.reset.axis a).direction = .plus
        ∧ (State.reset.axis a).move = none ∧ (State.reset.axis a).stallCount = 0 ∧ (State.reset.axis a).latch = .none
        ∧ (State.reset.axis a).lastResult = none ∧ (State.reset.axis a).bridge = .off
        ∧ (State.reset.axis a).cfg.stallWindow = 80 ∧ (State.reset.axis a).cfg.coastLead = 6
        ∧ (State.reset.axis a).cfg.tolerance = 8 ∧ (State.reset.axis a).cfg.margin = 16
        ∧ State.reset.owner a = .none ∧ State.reset.claims.held[a] = ⟨false, false, false⟩)
    ∧ State.reset.axes.toList.map (·.cfg.ratedUnits) = [16, 20, 12, 16, 8, 10, 6, 6]
    ∧ State.reset.axes.toList.map (·.cfg.braceTarget) = [.none, .none, .upper, .lower, .none, .none, .none, .upper]
    ∧ State.reset.claims.slots = Vector.replicate 3 none ∧ State.reset.claims.queue = []
    ∧ State.reset.gov = ⟨40, 8, #v[10, 6, 10, 6], 0, .normal, false⟩
    ∧ State.reset.plans = ⟨Vector.replicate 32 none, none, none, none, .parked⟩ ∧ State.reset.lastProfile = none
    ∧ State.reset.switches.window = none ∧ State.reset.switches.lastAction = .none
    ∧ State.reset.cells.queue = [] ∧ State.reset.cells.pump = .idle
    ∧ (∀ c : Fin 12, (State.reset.cell c).owner = .none ∧ (State.reset.cell c).target = 0 ∧ (State.reset.cell c).valve = .vent
        ∧ (State.reset.cell c).fillTime = 0 ∧ (State.reset.cell c).latch = .none)
    ∧ State.reset.massage.running = false ∧ State.reset.massage.pressures = #v[20, 28, 36, 44, 52]
    ∧ State.reset.massage.sessionLength = 15 ∧ State.reset.massage.lastStop = .none
    ∧ State.reset.massage.patterns.toList.map (·.state) = [.ready, .ready, .ready, .empty, .empty, .empty, .empty, .empty]
    ∧ (∀ z : Fin 4, (State.reset.zone z).mode = .off ∧ (State.reset.zone z).maxDuty = 80 ∧ (State.reset.zone z).demand = 0
        ∧ (State.reset.zone z).ceiling = 0 ∧ (State.reset.zone z).applied = 0 ∧ (State.reset.zone z).latch = .none)
    ∧ State.reset.brace.state = .idle ∧ State.reset.brace.snapshot = none ∧ State.reset.brace.lastEnd = none
    ∧ State.reset.brace.deadline = 600 ∧ State.reset.brace.holdTime = 5 ∧ State.reset.brace.bolsterPressure = 90
    ∧ State.reset.brace.ackMode = .level ∧ State.reset.ackLine = false
    ∧ State.reset.link.receiver = .hunting ∧ State.reset.link.slot = .empty ∧ State.reset.link.owed = []
    ∧ State.reset.link.pendingNotices = Vector.replicate 10 false ∧ State.reset.link.silenceTime = 10
    ∧ State.reset.link.hostSilent = false ∧ State.reset.power.state = .starting
    ∧ State.reset.pending = []

/-! ### Axis drives -/

/-- A Hall edge changes its axis's position by one count in the drive direction, within 0 to 8,191, in every activity state; in
IDLE and FAULTED it changes nothing else of the axis, it never changes the referenced flag, the travel or the direction, and in
SLEEP it is not counted (R3). In RUNNING and STOPPING the timers of R7 and R13 start anew. No other axis is touched, and outside a
shutdown nothing else of the part but what the link is about to send. -/
def Spec.HallEdgeCountsThePosition : Prop :=
  ∀ (s : State) (a : Fin 8), s.agenda = [] →
    (s.live = true → ∃ t x, exec (.hallEdge a) s = .next t ∧ t.axes = s.axes.set a x
        ∧ (s.power.state ≠ .shuttingDown → t = { s with axes := t.axes, link := t.link } ∧ s.link.carriesOn t.link)
        ∧ x.position = Spec.countedOn (s.axis a).direction (s.axis a).position
        ∧ x.direction = (s.axis a).direction ∧ x.referenced = (s.axis a).referenced ∧ x.travel = (s.axis a).travel
        ∧ ((s.axis a).activity = .idle ∨ (s.axis a).activity = .faulted → x = { s.axis a with position := x.position })
        ∧ ((s.axis a).activity = .stopping → x = { s.axis a with position := x.position, settleLeft := some 30 })
        ∧ ((s.axis a).activity = .running → x.activity = .running → x = { s.axis a with position := x.position, edgeTime := 0 }))
      ∧ (s.power.state = .sleep → ∃ t, exec (.hallEdge a) s = .next t ∧ t.axes = s.axes)

/-- A targeted drive ends at the first edge that leaves the position within the coast lead of the target: braked, STOPPING, the
settle timer of 30 ms started; before that it goes on (R7). Everything but the axis, and what the link is about to send, stays. -/
def Spec.CoastLeadEndsATargetedDrive : Prop :=
  ∀ (s : State) (a : Fin 8) (m : Move) (target : Nat), s.atEase → (s.axis a).activity = .running → (s.axis a).move = some m →
    m.target = some target →
    ∃ l, exec (.hallEdge a) s
        = .next { s with
            axes := s.axes.set a
              (if Spec.apart (Spec.countedOn (s.axis a).direction (s.axis a).position) target ≤ m.coastLead then
                Spec.braked .coastLead m
                  { s.axis a with position := Spec.countedOn (s.axis a).direction (s.axis a).position }
              else { s.axis a with position := Spec.countedOn (s.axis a).direction (s.axis a).position, edgeTime := 0 })
            link := l }
      ∧ s.link.carriesOn l

/-- Every Hall edge of an axis changes that axis's position by one count in the drive direction, within 0 to 8,191, in every
activity state, and never the referenced flag, the travel or the direction; in SLEEP it is not counted (R3,
`Spec.HallEdgeCountsThePosition`). A targeted drive ends at the first edge that leaves the position within the coast lead of the
target (R7, `Spec.CoastLeadEndsATargetedDrive`). Each leaves the rest of the part as it was. -/
def Obligations.HallEdgesCountAndEndDrives : Prop := Spec.HallEdgeCountsThePosition ∧ Spec.CoastLeadEndsATargetedDrive

/-- A stall of a RUNNING axis brakes it. In a referencing leg, and on an unreferenced axis owned by SWITCH or BRACE, it is not
counted; otherwise the stall count rises by one where the direction is that of the last counted stall, and is 1 where it is not,
and the latch becomes STALL at 3 (R13, R14, R19). On an axis that is not RUNNING no stall is judged. -/
def Spec.StallBrakesAndCounts : Prop :=
  ∀ (s : State) (a : Fin 8), s.atEase →
    ((s.axis a).activity ≠ .running → ∃ l, exec (.stall a) s = .next { s with link := l } ∧ s.link.carriesOn l)
    ∧ ∀ m, (s.axis a).activity = .running → (s.axis a).move = some m →
      ∃ l x, exec (.stall a) s = .next { s with axes := s.axes.set a x, link := l } ∧ s.link.carriesOn l
        ∧ (m.leg = some .leg1 ∨ m.leg = some .leg2 → x = Spec.braked .stall m (s.axis a))
        ∧ (m.leg ≠ some .leg1 → m.leg ≠ some .leg2 → (s.axis a).referenced = false →
            s.owner a = .switch ∨ s.owner a = .brace → x = Spec.braked .endStop m (s.axis a))
        ∧ (m.leg ≠ some .leg1 → m.leg ≠ some .leg2 →
            ((s.axis a).referenced = true ∨ (s.owner a ≠ .switch ∧ s.owner a ≠ .brace)) →
            ∃ n, n = (if (s.axis a).stallCount ≠ 0 ∧ (s.axis a).stallDir = (s.axis a).direction then (s.axis a).stallCount + 1 else 1)
              ∧ x = Spec.braked .stall m
                  { s.axis a with
                    stallCount := n, stallDir := (s.axis a).direction
                    latch := if n = 3 then .stall else (s.axis a).latch })

/-- An over-current trip of an axis that is driven or braked turns the bridge off at once, latches OVERCURRENT in place of any
other latch and leaves the axis STOPPING; the settle timer starts from RUNNING and goes on in STOPPING (R15). Otherwise the
current is not judged. The leg limit of a referencing leg brakes the axis and latches REFERENCE_FAILED at once; outside a leg
that is RUNNING there is no limit (R19, R21). -/
def Spec.TripsAndLegLimitsStopTheAxis : Prop :=
  ∀ (s : State) (a : Fin 8), s.atEase →
    (∃ l, s.link.carriesOn l
      ∧ exec (.overcurrentTrip a) s
        = .next (if (s.axis a).moving = true ∧ (s.axis a).bridge ≠ .off then
            { s with
              axes := s.axes.set a { s.axis a with
                bridge := .off, latch := .overcurrent, activity := .stopping
                settleLeft := if (s.axis a).activity = .running then some 30 else (s.axis a).settleLeft
                move := (s.axis a).move.map fun m => { m with ended := some .tripped } }
              link := l }
          else { s with link := l }))
    ∧ ∀ m, (s.axis a).move = some m →
      ∃ l, s.link.carriesOn l
        ∧ exec (.legLimit a) s
          = .next (if (s.axis a).activity = .running ∧ (m.leg = some .leg1 ∨ m.leg = some .leg2) then
              { s with axes := s.axes.set a { Spec.braked .legLimit m (s.axis a) with latch := .referenceFailed }, link := l }
            else { s with link := l })

/-- A stall of a RUNNING axis brakes it, and is counted but for a referencing leg and for an unreferenced axis owned by SWITCH
or BRACE (R13, R14, R19, `Spec.StallBrakesAndCounts`). An over-current trip turns the bridge off and latches OVERCURRENT (R15),
and a leg limit brakes the axis and latches REFERENCE_FAILED (R19, R21, `Spec.TripsAndLegLimitsStopTheAxis`). -/
def Obligations.StallsTripsAndLegLimitsStopTheAxis : Prop := Spec.StallBrakesAndCounts ∧ Spec.TripsAndLegLimitsStopTheAxis

/-- At a settle the next drive of the same move begins at once, and the axis keeps slot, grant and owner (R6): the corrective
drive, at the end of a targeted drive by its coast lead, where the position is outside the tolerance and no corrective drive has
been made (R9); LEG2 in direction +, at LEG1's stall, with the position set to 0; and after LEG2's stall the back-off drive
toward travel less margin, where the position, learned as the travel, is at least 64 and at least twice the margin and the
tolerance is less than the margin, the axis now being referenced (R19, R20). -/
def Obligations.SettleBeginsTheNextDrive : Prop :=
  ∀ (s : State) (a : Fin 8) (m : Move), s.atEase → (s.axis a).activity = .stopping → (s.axis a).latch = .none →
    (s.axis a).move = some m → m.stopCause = none →
    (∀ target, m.ended = some .coastLead → m.target = some target → m.corrective = false →
      m.tolerance < Spec.apart (s.axis a).position target →
      ∃ l, exec (.settle a) s
          = .next { s with
              axes := s.axes.set a
                (Spec.driving (if (s.axis a).position < target then .plus else .minus) { m with corrective := true } (s.axis a))
              link := l }
        ∧ s.link.carriesOn l)
    ∧ (m.ended = some .stall → m.leg = some .leg1 →
      ∃ l, exec (.settle a) s
          = .next { s with
              axes := s.axes.set a (Spec.driving .plus { m with leg := some .leg2 } { s.axis a with position := 0 }), link := l }
        ∧ s.link.carriesOn l)
    ∧ (m.ended = some .stall → m.leg = some .leg2 → 64 ≤ (s.axis a).position → 2 * (s.axis a).cfg.margin ≤ (s.axis a).position →
      m.tolerance < (s.axis a).cfg.margin →
      ∃ l, exec (.settle a) s
          = .next { s with
              axes := s.axes.set a
                (Spec.driving .minus
                  { m with
                    leg := some .backoff, target := some ((s.axis a).position - (s.axis a).cfg.margin), corrective := false }
                  { s.axis a with travel := some (s.axis a).position, referenced := true, stallCount := 0 })
              link := l }
        ∧ s.link.carriesOn l)

/-- How a STOPPING axis under a LINK move comes to rest (R8, R9, R11, R14, R15, R19 to R21): the record it leaves. -/
def Spec.settledRecord (m : Move) (x : Axis) : Axis :=
  match x.latch, m.stopCause, m.ended, m.target with
  | .overcurrent, _, _, _ => Spec.rested .faulted .tripped x
  | .stall, _, _, _ => Spec.rested .faulted .stalled x
  | .referenceFailed, _, _, _ => Spec.rested .faulted .referenceFailed x
  | .none, some .owner, _, _ => Spec.rested .idle .stopped x
  | .none, some (.preempt r), _, _ => Spec.rested .idle (.aborted r) x
  | .none, none, some .endStop, _ => Spec.rested .idle .endStop x
  | .none, none, some .coastLead, some target =>
    if Spec.apart x.position target ≤ m.tolerance then
      Spec.rested .idle (if m.leg = some .backoff then .referenced true else .reached) { x with stallCount := 0 }
    else Spec.rested .idle (if m.leg = some .backoff then .referenced false else .missed) x
  | .none, none, _, _ =>
    if m.leg = some .leg2 then
      (if x.position < 64 ∨ x.position < 2 * x.cfg.margin then
        Spec.rested .faulted .referenceFailed { x with latch := .referenceFailed }
      else
        Spec.rested .idle (.referenced true) { x with travel := some x.position, referenced := true, stallCount := 0 })
    else Spec.rested .idle .stalled x

/-- A settle that ends a LINK move, nothing else being claimed: the result is the one the rules give, the bridge is off, the
move record is removed, the slot is freed and the owner returns to NONE. LEG2's stall ends the move where the learned travel is
below 64 or below twice the margin, with REFERENCE_FAILED latched (R21), and where the position lies already within tolerance of
travel less margin, with REFERENCED and no back-off (R20). Other axes, plans, profiles, switches, massage, brace, stored records
and power are as before (R8, R9, R11, R12, R38, R39). -/
def Obligations.SettleEndsALinkMove : Prop :=
  ∀ (s : State) (a : Fin 8) (m : Move) (x : Slot), s.atEase → s.unclaimed → (s.axis a).activity = .stopping →
    (s.axis a).move = some m → s.slotOf a = some x → x.owner = .link → s.owner a = .link →
    m.ended = some .coastLead ∧ m.target.isSome
      ∨ m.ended = some .stall ∧ m.leg ≠ some .leg1
        ∧ (m.leg = some .leg2 →
          (s.axis a).position < 64 ∨ (s.axis a).position < 2 * (s.axis a).cfg.margin ∨ (s.axis a).cfg.margin ≤ m.tolerance)
      ∨ m.ended = some .endStop ∨ m.stopCause.isSome ∨ (s.axis a).latch ≠ .none →
    (∀ target, m.ended = some .coastLead → m.target = some target → (s.axis a).latch = .none → m.stopCause = none →
      m.corrective = true ∨ Spec.apart (s.axis a).position target ≤ m.tolerance) →
    ∃ t, exec (.settle a) s = .next t
      ∧ t.axes = s.axes.set a (Spec.settledRecord m (s.axis a))
      ∧ t.owner a = .none ∧ t.slotOf a = none ∧ t.claims.queue = []
      ∧ t = { s with
          axes := t.axes, claims := { s.claims with owners := t.claims.owners, slots := t.claims.slots }
          gov := { s.gov with pumpGrant := t.gov.pumpGrant }, zones := t.zones, cells := t.cells, link := t.link }
      ∧ s.link.carriesOn t.link

/-! ### Host commands in common -/

/-- A command that finds the slot EMPTY is answered UNKNOWN where its code is not in the command code table, and nothing else of
the part changes (R173, R175). In STARTING every command is answered BUSY without effect (R173, R189). -/
def Obligations.CommandsNotTakenAreAnswered : Prop :=
  (∀ (s : State) (code tag : Byte) (payload : List Byte), s.awaits → knownCodes.contains code = false →
    ∃ l, exec (.unknownCode code tag payload) s = .next { s with link := l }
      ∧ s.link.answered ⟨code, tag, payload⟩ .unknown .none l)
    ∧ ∀ (s : State) (c : Instr) (code : Byte), s.agenda = [] → s.power.state = .starting → s.power.held = false →
      s.link.discarding = false → s.link.lineLow = false → s.link.slot = .empty → c.code = some code → c.wf = true →
      ∃ t, exec c s = .next t ∧ t = { s with link := t.link } ∧ t.link.slot = .replied ⟨code, c.tag, c.payload⟩ .busy .none

/-- A command frame that arrives while the slot is IN_HAND or REPLIED is discarded without being taken: it makes an OVERRUN
reply owed behind those owed already, with its own code and tag and the count 1, or raises the count of the one that is owed by
one, staying at 255. One that arrives once the slot is EMPTY is placed in it, whatever is owed (R174). Either restarts the
silence timer and clears HOST_SILENT (R180). A frame is being sent here, so that nothing leaves the replies owed. -/
def Obligations.OverrunDiscardsTheCommand : Prop :=
  ∀ (s : State) (c : Command) (frame : List Byte), s.atEase → s.link.discarding = false → s.link.lineLow = false →
    s.link.sending.isSome → parseFrame frame = some c →
    ∃ l, exec (.frameReceived frame) s = .next { s with link := l }
      ∧ l = { s.link with
          receiver := .hunting, hostSilent := false, owed := l.owed, pendingNotices := l.pendingNotices, slot := l.slot
          silenceLeft := if s.link.silenceTime = 0 then none else some (s.link.silenceTime * 1000) }
      ∧ (s.link.slot = .empty → l.slot = .inHand c ∧ l.owed = s.link.owed ++ [.command])
      ∧ (s.link.slot ≠ .empty → l.slot = s.link.slot)
      ∧ (s.link.slot ≠ .empty → (∀ k t n, Owed.overrun k t n ∉ s.link.owed) → l.owed = s.link.owed ++ [.overrun c.code c.tag 1])
      ∧ (s.link.slot ≠ .empty → ∀ before after k t n, s.link.owed = before ++ .overrun k t n :: after →
          (∀ k' t' n', Owed.overrun k' t' n' ∉ before) → (∀ k' t' n', Owed.overrun k' t' n' ∉ after) →
          l.owed = before ++ .overrun k t (min (n + 1) 255) :: after)

/-- IDENTIFY, STATUS and CONFIG_GET read the part and change nothing of it but the reply (and what it last sensed, which STATUS
takes): an IDENTIFY with no payload, a STATUS with a selector from 1 to 8 and a CONFIG_GET of an item of the table are answered
DONE, any other payload BAD_PARAMETER (R182, R183). The data of STATUS are the selector's, taken from the state as the command
finds it (R182; what a run that waits carries in their place `TransmitterChoosesInOrder` says; for FAULTS see `FaultSetIsReadFromTheLatches`, and for what each selector's data hold
`NoticesCarryTheirFields`). -/
def Obligations.ReadingCommandsChangeNothing : Prop :=
  ∀ (s : State) (tag : Byte) (payload : List Byte) (sense : Sense), s.awaits →
    (∃ l, exec (.identify tag payload) s = .next { s with link := l }
      ∧ s.link.answered ⟨0x01, tag, payload⟩ (if payload = [] then .done else .badParameter)
          (if payload = [] then .content identity else .none) l)
    ∧ (∀ b : Byte, 1 ≤ b.toNat → b.toNat ≤ 8 →
        ∃ l d, exec (.status tag [b] sense) s = .next { s with sense := sense, link := l }
          ∧ s.link.answered ⟨0x02, tag, [b]⟩ .done d l
          ∧ ∀ sel, readSelector [b] = some sel → sel ≠ .faults → d = .content (State.statusContent { s with sense := sense } sel))
    ∧ ((∀ b : Byte, 1 ≤ b.toNat → b.toNat ≤ 8 → payload ≠ [b]) →
        ∃ l, exec (.status tag payload sense) s = .next { s with link := l }
          ∧ s.link.answered ⟨0x02, tag, payload⟩ .badParameter .none l)
    ∧ (∀ (item index : Byte) (x : ConfigItem), readItem item index = some x →
        ∃ l, exec (.configGet tag [item, index]) s = .next { s with link := l }
          ∧ s.link.answered ⟨0x04, tag, [item, index]⟩ .done
              (.bytes ([item, index] ++ [BitVec.ofNat 8 (s.configValue x / 256), BitVec.ofNat 8 (s.configValue x)])) l)
    ∧ (readConfigGet payload = none →
        ∃ l, exec (.configGet tag payload) s = .next { s with link := l }
          ∧ s.link.answered ⟨0x04, tag, payload⟩ .badParameter .none l)

/-- The commands that end the frame being sent, or may reset the part. -/
def Spec.resetsOrEndsFrame : Instr → Bool
  | .frameSent | .lineBreak | .powerOn | .resetPin _ => true
  | _ => false

/-- The fault set is read from the latches themselves: an entry for each axis, cell and zone and one for the pump, absent when the
latch is NONE, with the two condition flags supply LOW and HOST_SILENT. STATUS with selector FAULTS returns it, with the power state
and the time left on the silence timer, which the command has restarted (R182); the FAULT notice carries it. A command that
changes an entry or a flag posts the FAULT notice: it is pending (R181; a frame is being sent here, so that the notice is not itself
begun). -/
def Obligations.FaultSetIsReadFromTheLatches : Prop :=
  (∀ (s : State) (tag : Byte) (sense : Sense), s.awaits →
    ∃ l v left, exec (.status tag [8] sense) s = .next { s with sense := sense, link := l }
      ∧ l.slot = .replied ⟨0x02, tag, [8]⟩ .done (.content (.statusFaults v .awake left))
      ∧ (∀ a : Fin 8, v.axes[a] = (s.axis a).latch) ∧ (∀ c : Fin 12, v.cells[c] = (s.cell c).latch)
      ∧ (v.pump = true ↔ s.cells.pump = .tripped) ∧ (∀ z : Fin 4, v.zones[z] = (s.zone z).latch)
      ∧ (v.supplyLow = true ↔ s.gov.supply = .low) ∧ v.hostSilent = false
      ∧ left = (if s.link.silenceTime = 0 then none else some (s.link.silenceTime * 1000)))
    ∧ (∀ s : State, ∃ v, s.noticeContent .fault = .fault v
      ∧ (∀ a : Fin 8, v.axes[a] = (s.axis a).latch) ∧ (∀ c : Fin 12, v.cells[c] = (s.cell c).latch)
      ∧ (v.pump = true ↔ s.cells.pump = .tripped) ∧ (∀ z : Fin 4, v.zones[z] = (s.zone z).latch)
      ∧ (v.supplyLow = true ↔ s.gov.supply = .low) ∧ v.hostSilent = s.link.hostSilent)
    ∧ ∀ (c : Instr) (s t : State), s.agenda = [] → s.link.sending.isSome → Spec.resetsOrEndsFrame c = false → exec c s = .next t →
      t.noticeContent .fault ≠ s.noticeContent .fault → t.link.pendingNotices[NoticeKind.fault.index] = true

/-- A time left in ms, in whole units of a length: exact where it is a whole number of them, and one of the two next to it
otherwise. Which of the two is open (log 34, the model's choice: a free value). -/
def Spec.inUnits (unit time shown : Nat) : Prop :=
  (time % unit = 0 → shown = time / unit) ∧ (shown = time / unit ∨ shown = time / unit + 1)

/-- The fields of one axis in the AXIS notice (R25, R44). -/
def Spec.axisFields (s : State) (a : Fin 8) : AxisView where
  activity := (s.axis a).activity
  position := (s.axis a).position
  referenced := (s.axis a).referenced
  travel := (s.axis a).travel
  limits := (s.axis a).travel.map fun travel => ((s.axis a).cfg.margin, travel - (s.axis a).cfg.margin)
  latch := (s.axis a).latch
  stallCount := (s.axis a).stallCount
  lastResult := (s.axis a).lastResult
  owner := s.owner a

/-- The fields of a plan in the PLAN notice: its result is carried in ENDING alone (R81). -/
def Spec.planFields (p : Plan) : PlanView where
  kind := p.kind
  source := p.source
  state := p.state
  step := p.step
  steps := p.steps
  partials := p.partials
  outcome := if p.state = .ending then p.outcome else none

/-- The fields of the BRACE notice (R170). -/
def Spec.braceFields (s : State) : BraceView where
  state := s.brace.state
  source := s.brace.source
  late := s.brace.late
  releasePending := s.brace.releasePending
  holdPending := s.brace.holdPending
  axes := s.brace.axes
  bolster10 := s.brace.bolster10
  bolster11 := s.brace.bolster11
  bolsterFail := s.brace.bolsterFail
  lineActive := s.brace.lineActive
  ackActive := s.ackLine
  lastEnd := s.brace.lastEnd

/-- The units a zone draws: rated units times applied duty divided by 100, rounded up (R46). -/
def Spec.drawn (s : State) (z : Fin 4) : Nat := (s.gov.zoneRated[z] * (s.zone z).applied + 99) / 100

/-- The units granted to the axes: those charged at the start of the move in each slot (R46). -/
def Spec.motors (s : State) : Nat :=
  (s.claims.slots.toList.map fun x => match x with
    | some y => y.units
    | none => 0).sum

/-- What the notices and the STATUS replies carry, gathered from the blocks as they stand: READY (R192), BRACE (R170), SUPPLY
(R60), PLAN (R81), AXIS (R25), PROFILE (R101), MASSAGE (R135), HEAT (R149) and SWITCH (R114); and the data of the selectors AXES
(R44), PLANS (R81), CELLS and PATTERNS (R135), HEAT (R149), BRACE (R170) and SUPPLY (R60) beside those of the same notice. The
FAULT notice stands in `FaultSetIsReadFromTheLatches`. -/
def Obligations.NoticesCarryTheirFields : Prop :=
  ∀ s : State,
    s.noticeContent .ready = .ready s.power.state s.power.awakeCause s.power.parkingWasValid s.power.standing s.power.corruptSlots
    ∧ s.noticeContent .brace = .brace (Spec.braceFields s)
    ∧ (∃ v, s.noticeContent .supply = .supply v ∧ v.supply = s.gov.supply ∧ v.limit = s.gov.limit ∧ v.motorUnits = Spec.motors s
        ∧ v.pumpGrant = s.gov.pumpGrant
        ∧ v.grantedSum = Spec.motors s + s.gov.pumpGrant
            + (Spec.drawn s 0 + Spec.drawn s 1 + Spec.drawn s 2 + Spec.drawn s 3)
        ∧ (∀ z : Fin 4, v.ceilings[z] = (s.zone z).ceiling ∧ v.heaterUnits[z] = Spec.drawn s z)
        ∧ (v.pumpPaused = true ↔ s.cells.pump = .paused) ∧ v.regime = s.gov.regime
        ∧ ∀ a : Fin 8, ∃ grants request free, s.statusContent .supply
            = .statusSupply grants request v.pumpGrant v.heaterUnits v.ceilings v.supply v.limit v.grantedSum free v.regime
                s.sense.supply
          ∧ grants[a] = (s.slotOf a).map (·.units) ∧ free = s.gov.limit - v.grantedSum
          ∧ request = (match s.cells.pump with
              | .waiting => .waiting
              | .running => .granted
              | .paused => .paused
              | .idle | .resting | .tripped => .none))
    ∧ (∃ v, s.noticeContent .plan = .plan v
        ∧ v = ⟨s.plans.vehicle, s.plans.current.map Spec.planFields, s.plans.next.map Spec.planFields, s.plans.last⟩
        ∧ ∃ entries left valid, s.statusContent .plans = .statusPlans v entries left valid
          ∧ (∀ p, s.plans.current = some p → p.state = .running → entries = p.entries) ∧ left = s.plans.current.bind (·.pauseLeft)
          ∧ ∀ i : Fin 32, valid[i] = s.plans.table[i].isSome)
    ∧ (∃ v, s.noticeContent .axis = .axis v ∧ (∀ a : Fin 8, v[a] = Spec.axisFields s a)
        ∧ s.statusContent .axes
          = .statusAxes v s.claims.slots (s.claims.queue.map fun e => ⟨e.axis, e.owner, e.kind, e.goal, e.group.isSome⟩))
    ∧ (∃ v, s.noticeContent .profile = .profile v s.lastProfile ∧ ∀ p : Fin 6,
        v[p].state = (s.profile p).state ∧ v[p].persisted = (s.profile p).persisted
          ∧ v[p].presence = (s.profile p).content.positions.toList.map (·.isSome)
              ++ [(s.profile p).content.lumbar.isSome, (s.profile p).content.heat.isSome, (s.profile p).content.massage.isSome, false]
          ∧ (v[p].pendingOrWriting = true ↔ s.store.pendingProfiles[p] = true ∨ ∃ c, s.store.job = some (.profile p c)))
    ∧ (∃ e patterns cells, s.noticeContent .massage
          = .massage e patterns cells s.cells.queue s.cells.pump (decide (s.cells.pump = .tripped))
        ∧ e.running = s.massage.running ∧ e.active = s.massage.active ∧ e.staged = s.massage.staged
        ∧ e.intensity = s.massage.intensity ∧ e.counter = s.massage.counter ∧ e.lastStop = s.massage.lastStop
        ∧ (s.massage.sessionLeft = none → e.sessionLeft = none)
        ∧ (∀ left, s.massage.sessionLeft = some left → ∃ n, e.sessionLeft = some n ∧ Spec.inUnits 1000 left n)
        ∧ (∀ p : Fin 8, patterns[p] = (s.pattern p).state)
        ∧ (∀ c : Fin 12, cells[c] = ⟨(s.cell c).owner, (s.cell c).target, (s.cell c).pressure, (s.cell c).valve, (s.cell c).latch⟩)
        ∧ s.statusContent .patterns = .statusPatterns s.massage.patterns e
        ∧ s.statusContent .cells
          = .statusCells s.cells.cells s.cells.queue s.cells.pump s.cells.runTime
              (if s.cells.pump = .resting then some (30000 - s.cells.offTime) else none) (decide (s.cells.pump = .tripped))
              s.sense.pumpCurrent)
    ∧ (∃ v, s.noticeContent .heat = .heat v
        ∧ (∀ z : Fin 4, v[z] = ⟨(s.zone z).mode, (s.zone z).applied, (s.zone z).ceiling, (s.zone z).temperature, (s.zone z).latch⟩)
        ∧ ∃ w, s.statusContent .heat = .statusHeat w ∧ ∀ z : Fin 4,
          w[z] = ⟨v[z], (s.zone z).maxDuty, (s.zone z).demand, (s.zone z).boostLeft, Spec.drawn s z, (s.zone z).outputOn,
            (s.zone z).periodTime⟩)
    ∧ (∃ shown, s.noticeContent .switch = .switch s.switches.contacts s.switches.pairs shown s.switches.lastAction
        ∧ (s.switches.window = none → shown = none)
        ∧ ∀ left, s.switches.window = some left → ∃ n, shown = some n ∧ Spec.inUnits 100 left n)
    ∧ ∃ targets, s.statusContent .brace
        = .statusBrace (Spec.braceFields s) s.brace.deadlineLeft s.brace.holdLeft s.brace.snapshot targets s.brace.deadline
            s.brace.holdTime s.brace.bolsterPressure s.brace.ackMode
      ∧ ∀ a : Fin 8, targets[a] = (s.axis a).cfg.braceTarget

/-- A command that changes what one of the notices reports as an event leaves that kind pending: the events of READY (R192),
BRACE (R170), SUPPLY (R60), PLAN (R81), AXIS (R25, R44), PROFILE (R101), MASSAGE (R135), HEAT (R149) and SWITCH (R114). A frame
is being sent here, so that the notice is not itself begun; STARTING is left out, where the scanner takes the inputs as they
stand (R102) and the axis records are filled without the AXIS notice (log 36, the model's choice). FAULT stands in
`FaultSetIsReadFromTheLatches`. -/
def Obligations.ChangesPostTheirNotices : Prop :=
  ∀ (c : Instr) (s t : State), s.agenda = [] → s.link.sending.isSome → Spec.resetsOrEndsFrame c = false → s.power.held = false →
    s.power.state ≠ .starting → exec c s = .next t →
    (s.power.state = .sleep ∧ t.power.state = .awake → t.link.pendingNotices[NoticeKind.ready.index] = true)
    ∧ ((t.brace.state, t.brace.source, t.brace.late, t.brace.releasePending, t.brace.holdPending, t.brace.axes)
          ≠ (s.brace.state, s.brace.source, s.brace.late, s.brace.releasePending, s.brace.holdPending, s.brace.axes)
        ∨ (t.brace.bolster10, t.brace.bolster11, t.brace.bolsterFail, t.brace.lineActive, t.brace.lastEnd)
          ≠ (s.brace.bolster10, s.brace.bolster11, s.brace.bolsterFail, s.brace.lineActive, s.brace.lastEnd) →
        t.link.pendingNotices[NoticeKind.brace.index] = true)
    ∧ ((t.gov.supply, t.gov.limit, t.gov.regime) ≠ (s.gov.supply, s.gov.limit, s.gov.regime)
        ∨ (∃ z : Fin 4, (t.zone z).ceiling ≠ (s.zone z).ceiling) ∨ s.cells.pump ≠ .paused ∧ t.cells.pump = .paused →
        t.link.pendingNotices[NoticeKind.supply.index] = true)
    ∧ (t.plans.vehicle ≠ s.plans.vehicle ∨ t.plans.next.isSome ≠ s.plans.next.isSome
        ∨ s.plans.current = none ∧ t.plans.current.isSome
        ∨ (∃ p, s.plans.current = some p ∧ (p.notify = true ∧ t.plans.current = none
            ∨ p.state = .running ∧ ∃ q, t.plans.current = some q ∧ q.state = .ending)) →
        t.link.pendingNotices[NoticeKind.plan.index] = true)
    ∧ ((∃ a : Fin 8, t.owner a ≠ s.owner a
          ∨ ((t.axis a).activity, (t.axis a).referenced, (t.axis a).latch, (t.axis a).lastResult)
            ≠ ((s.axis a).activity, (s.axis a).referenced, (s.axis a).latch, (s.axis a).lastResult)) →
        t.link.pendingNotices[NoticeKind.axis.index] = true)
    ∧ (t.lastProfile ≠ s.lastProfile
        ∨ (∃ p : Fin 6, (s.profile p).persisted = false ∧ (t.profile p).persisted = true
          ∨ ((t.profile p).state, (t.profile p).content) ≠ ((s.profile p).state, (s.profile p).content)) →
        t.link.pendingNotices[NoticeKind.profile.index] = true)
    ∧ ((t.massage.running, t.massage.active, t.massage.staged, t.cells.pump)
          ≠ (s.massage.running, s.massage.active, s.massage.staged, s.cells.pump)
        ∨ (∃ p : Fin 8, (t.pattern p).state ≠ (s.pattern p).state)
        ∨ (∃ i : Fin 12, ((t.cell i).owner, (t.cell i).latch) ≠ ((s.cell i).owner, (s.cell i).latch)) →
        t.link.pendingNotices[NoticeKind.massage.index] = true)
    ∧ ((∃ z : Fin 4, ((t.zone z).mode, (t.zone z).applied, (t.zone z).ceiling, (t.zone z).latch)
          ≠ ((s.zone z).mode, (s.zone z).applied, (s.zone z).ceiling, (s.zone z).latch)) →
        t.link.pendingNotices[NoticeKind.heat.index] = true)
    ∧ (t.switches.contacts ≠ s.switches.contacts ∨ t.switches.window.isSome ≠ s.switches.window.isSome
        ∨ t.switches.lastAction ≠ s.switches.lastAction ∨ (∃ a : Fin 8, (t.pair a).opposed ≠ (s.pair a).opposed) →
        t.link.pendingNotices[NoticeKind.switch.index] = true)

/-- The reply to a CONFIG_SET of an axis's item (R23), its value in range or not, in the order of the rule. -/
def Spec.axisItemReply (s : State) (item : Nat) (a : Fin 8) (v : Nat) : ReplyStatus :=
  let c := (s.axis a).cfg
  let sumWith (units : Nat) (target : BraceTarget) : Nat :=
    ((List.finRange 8).map fun b =>
      if b = a then (if target = .none then 0 else units)
      else if (s.axis b).cfg.braceTarget = .none then 0 else (s.axis b).cfg.ratedUnits).sum
  let others : Nat := ((List.finRange 8).filter fun b => b ≠ a ∧ (s.axis b).cfg.braceTarget ≠ .none).length
  match item with
  | 1 => if v < 2 ∨ 30 < v then .badParameter else if s.gov.limit < sumWith v c.braceTarget then .badParameter else .done
  | 2 => if v < 20 ∨ 250 < v then .badParameter else .done
  | 3 => if 32 < v then .badParameter else .done
  | 4 => if v < 2 ∨ 32 < v then .badParameter else .done
  | 5 =>
    if v < 4 ∨ 64 < v then .badParameter
    else if (s.axis a).activity ≠ .idle then .busy
    else if (s.axis a).referenced = true ∧ (∃ t, (s.axis a).travel = some t ∧ t < 2 * v) then .badParameter
    else .done
  | _ =>
    match (if v ≤ 8191 then some (BraceTarget.absolute v) else if v = 0xFFF0 then some .none else if v = 0xFFF1 then some .lower
        else if v = 0xFFF2 then some .upper else none) with
    | none => .badParameter
    | some target =>
      if s.brace.state ≠ .idle then .refused
      else if s.gov.limit < sumWith c.ratedUnits target ∨ 3 < others + (if target = .none then 0 else 1) then .badParameter
      else .done

/-- An axis's configuration with one item changed (R23, R185). -/
def Spec.axisItem (item : Nat) (v : Nat) (c : AxisConfig) : AxisConfig :=
  match item with
  | 1 => { c with ratedUnits := v }
  | 2 => { c with stallWindow := v }
  | 3 => { c with coastLead := v }
  | 4 => { c with tolerance := v }
  | 5 => { c with margin := v }
  | _ =>
    { c with
      braceTarget := if v = 0xFFF0 then .none else if v = 0xFFF1 then .lower else if v = 0xFFF2 then .upper else .absolute v }

/-- CONFIG_SET of an axis's item is answered by the cases of R23 in their order; applied, it changes that one item and no other
setting, and nothing else of any axis where the item is not its rated units; not applied, nothing but the reply. A margin is in
force at once: the soft limits are the new margin and the travel less it, absent where the travel is (R2). -/
def Spec.ConfigSetOfAnAxisItem : Prop :=
  ∀ (s : State) (tag item index hi lo : Byte) (a : Fin 8), s.awaits → 1 ≤ item.toNat → item.toNat ≤ 6 → index.toNat = a.val →
    ∃ t, exec (.configSet tag [item, index, hi, lo]) s = .next t
      ∧ t.link.slot = .replied ⟨0x03, tag, [item, index, hi, lo]⟩
          (Spec.axisItemReply s item.toNat a (hi.toNat * 256 + lo.toNat)) .none
      ∧ (Spec.axisItemReply s item.toNat a (hi.toNat * 256 + lo.toNat) ≠ .done → t = { s with link := t.link })
      ∧ (Spec.axisItemReply s item.toNat a (hi.toNat * 256 + lo.toNat) = .done →
          t.settings = { s.settings with
            axes := s.settings.axes.set a (Spec.axisItem item.toNat (hi.toNat * 256 + lo.toNat) (s.axis a).cfg) }
          ∧ (∀ b : Fin 8, (t.axis b).position = (s.axis b).position)
          ∧ (item.toNat ≠ 1 → t.axes = s.axes.set a { s.axis a with
              cfg := Spec.axisItem item.toNat (hi.toNat * 256 + lo.toNat) (s.axis a).cfg })
          ∧ (item.toNat = 5 → (t.axis a).limits = (s.axis a).travel.map fun travel =>
              (hi.toNat * 256 + lo.toNat, travel - (hi.toNat * 256 + lo.toNat))))

/-- The range of an item that is not an axis's, and what it becomes (R45, R58, R132, R143, R151, R180, R185). -/
def Spec.otherItem (item index v : Nat) (c : Settings) : Option Settings :=
  match item with
  | 16 => if index = 0 ∧ 2 ≤ v ∧ v ≤ 20 then some { c with pumpRated := v } else none
  | 17 => if h : index < 4 ∧ 2 ≤ v ∧ v ≤ 20 then some { c with zoneRated := c.zoneRated.set index v h.1 } else none
  | 18 => if h : index < 4 ∧ 10 ≤ v ∧ v ≤ 100 then some { c with maxDuty := c.maxDuty.set index v h.1 } else none
  | 24 =>
    if h : index - 1 < 5 ∧ 1 ≤ index ∧ 4 ≤ v ∧ v ≤ 120 then some { c with pressures := c.pressures.set (index - 1) v h.1 } else none
  | 25 => if index = 0 ∧ 1 ≤ v ∧ v ≤ 60 then some { c with sessionLength := v } else none
  | 32 => if index = 0 ∧ 200 ≤ v ∧ v ≤ 1500 then some { c with deadline := v } else none
  | 33 => if index = 0 ∧ 2 ≤ v ∧ v ≤ 30 then some { c with holdTime := v } else none
  | 34 => if index = 0 ∧ 20 ≤ v ∧ v ≤ 120 then some { c with bolsterPressure := v } else none
  | 35 =>
    if index = 0 then
      (match v with
        | 0 => some { c with ackMode := .pulse }
        | 1 => some { c with ackMode := .level }
        | 2 => some { c with ackMode := .done }
        | 3 => some { c with ackMode := .off }
        | _ => none)
    else none
  | 40 => if index = 0 ∧ v ≠ 1 ∧ v ≤ 60 then some { c with silenceTime := v } else none
  | _ => none

/-- CONFIG_SET of an item that is not an axis's: out of range or not in the table BAD_PARAMETER; a brace item while the brace
state is not IDLE REFUSED; otherwise DONE, with that one setting changed (R58, R132, R143, R151, R180, R183). Out of range comes before
REFUSED by log 54, the model's choice. -/
def Spec.ConfigSetOfAnotherItem : Prop :=
  ∀ (s : State) (tag item index hi lo : Byte), s.awaits → item.toNat = 0 ∨ 7 ≤ item.toNat →
    ∃ t status, exec (.configSet tag [item, index, hi, lo]) s = .next t
      ∧ t.link.slot = .replied ⟨0x03, tag, [item, index, hi, lo]⟩ status .none
      ∧ match Spec.otherItem item.toNat index.toNat (hi.toNat * 256 + lo.toNat) s.settings with
        | none => status = .badParameter ∧ t = { s with link := t.link }
        | some c =>
          if 32 ≤ item.toNat ∧ item.toNat ≤ 35 ∧ s.brace.state ≠ .idle then status = .refused ∧ t = { s with link := t.link }
          else status = .done ∧ t.settings = c

/-- CONFIG_SET of an axis's item is answered by the cases of R23 in their order and, applied, changes that one item, a margin
bringing its soft limits with it at once (R2, `Spec.ConfigSetOfAnAxisItem`). CONFIG_SET of any other item is BAD_PARAMETER out
of range, REFUSED for a brace item in a brace, and otherwise DONE with that one setting changed (R58, R132, R143, R151, R180,
R183, `Spec.ConfigSetOfAnotherItem`); that a brace item out of range in a brace is BAD_PARAMETER is the model's choice (log 54). -/
def Obligations.ConfigSetFollowsItsTables : Prop := Spec.ConfigSetOfAnAxisItem ∧ Spec.ConfigSetOfAnotherItem

/-- FAULT_CLEAR addressed to an axis: DONE without effect where no latch is set; DONE with latch NONE, stall count 0 and activity
IDLE where the axis is FAULTED, position and referenced flag kept; BUSY otherwise, the latch staying (R17). Nothing is queued that
could start the cleared axis. -/
def Spec.FaultClearOfAnAxis : Prop :=
  ∀ (s : State) (tag index : Byte) (a : Fin 8) (current : Nat), s.awaits → s.unclaimed → index.toNat = a.val →
    ∃ t status, exec (.faultClear tag [0, index] current) s = .next t
      ∧ t.link.slot = .replied ⟨0x05, tag, [0, index]⟩ status .none
      ∧ t = { s with axes := t.axes, sense := { s.sense with pumpCurrent := current }, link := t.link }
      ∧ ((s.axis a).latch = .none → status = .done ∧ t.axes = s.axes)
      ∧ ((s.axis a).latch ≠ .none → (s.axis a).activity = .faulted →
          status = .done ∧ t.axes = s.axes.set a { s.axis a with latch := .none, stallCount := 0, activity := .idle })
      ∧ ((s.axis a).latch ≠ .none → (s.axis a).activity ≠ .faulted → status = .busy ∧ t.axes = s.axes)

/-- FAULT_CLEAR addressed to a zone: NONE is DONE without effect; OVERTEMP is cleared below 45 °C; SENSOR with a temperature is
cleared, or replaced by OVERTEMP at 60 °C and above; BUSY where none of this holds (R146, temperatures as recorded). -/
def Spec.FaultClearOfAZone : Prop :=
  ∀ (s : State) (tag index : Byte) (z : Fin 4) (current : Nat), s.awaits → index.toNat = z.val →
    ∃ t status, exec (.faultClear tag [3, index] current) s = .next t
      ∧ t.link.slot = .replied ⟨0x05, tag, [3, index]⟩ status .none
      ∧ t = { s with zones := t.zones, sense := { s.sense with pumpCurrent := current }, link := t.link }
      ∧ (t.zone z).mode = (s.zone z).mode ∧ (t.zone z).temperature = (s.zone z).temperature
      ∧ (∀ y : Fin 4, y ≠ z → (t.zone y).latch = (s.zone y).latch ∧ (t.zone y).mode = (s.zone y).mode)
      ∧ match (s.zone z).latch, (s.zone z).temperature with
        | .none, _ => status = .done ∧ t.zones = s.zones
        | .overtemp, none => status = .busy ∧ t.zones = s.zones
        | .sensor, none => status = .busy ∧ t.zones = s.zones
        | .overtemp, some degrees =>
          if degrees < 90 then status = .done ∧ (t.zone z).latch = .none else status = .busy ∧ t.zones = s.zones
        | .sensor, some degrees => status = .done ∧ (t.zone z).latch = (if degrees < 120 then .none else .overtemp)

/-- FAULT_CLEAR addressed to an axis clears a FAULTED one, is BUSY for one that is latched and not yet FAULTED, and otherwise
does nothing (R17, `Spec.FaultClearOfAnAxis`); addressed to a zone it goes by the latch and the temperature recorded (R146,
`Spec.FaultClearOfAZone`). -/
def Obligations.FaultClearOfAnAxisOrAZone : Prop := Spec.FaultClearOfAnAxis ∧ Spec.FaultClearOfAZone

/-- FAULT_CLEAR addressed to a cell is answered DONE and leaves its latch NONE with fill time 0, and regulation resumes with the
target it has: it joins the fill queue below its band, and otherwise its valve is as R117 gives (R124; the frame is said where
nothing could start); addressed to the pump it is DONE where the pump is not TRIPPED or its current is below 0.5 A, the pump
then leaving TRIPPED, and BUSY otherwise (R122, R124). An element that does not exist is answered BAD_PARAMETER (R184). Currents
in tenths of an ampere, a cell at HOLD with target 0 and 3 or 4 half-kPa left at HOLD, and one with target 0 not yet vented that vents,
are the model's choices (logs 47, 46, 52). -/
def Obligations.FaultClearOfCellAndPump : Prop :=
  ∀ (s : State) (tag index : Byte) (current : Nat), s.awaits →
    (∀ c : Fin 12, index.toNat = c.val →
      ∃ t, exec (.faultClear tag [1, index] current) s = .next t
        ∧ t.link.slot = .replied ⟨0x05, tag, [1, index]⟩ .done .none ∧ (t.cell c).latch = .none
        ∧ ((s.cell c).latch = .leak → (t.cell c).fillTime = 0)
        ∧ (s.unclaimed → (t.cell c).target = (s.cell c).target ∧ (t.cell c).owner = (s.cell c).owner)
        ∧ (s.unclaimed → (s.cell c).latch = .leak → c ∉ s.cells.queue →
          ((s.cell c).pressure + 4 < (s.cell c).target → c ∈ t.cells.queue)
          ∧ ((s.cell c).target ≤ (s.cell c).pressure + 4 → c ∉ t.cells.queue
            ∧ (t.cell c).valve = (if (s.cell c).valve = .vent then
                (if (s.cell c).pressure ≤ (if (s.cell c).target = 0 then 2 else (s.cell c).target) then .hold else .vent)
              else if (s.cell c).target + 4 < (s.cell c).pressure then .vent else (s.cell c).valve))))
    ∧ (∃ t status, exec (.faultClear tag [2, 0] current) s = .next t
        ∧ t.link.slot = .replied ⟨0x05, tag, [2, 0]⟩ status .none
        ∧ (s.cells.pump ≠ .tripped → status = .done ∧ t.cells.pump = s.cells.pump)
        ∧ (s.cells.pump = .tripped → current < 5 → status = .done ∧ t.cells.pump ≠ .tripped)
        ∧ (s.cells.pump = .tripped → 5 ≤ current → status = .busy ∧ t.cells.pump = .tripped))
    ∧ (∀ kind : Byte, 4 ≤ kind.toNat ∨ kind = 0 ∧ 8 ≤ index.toNat ∨ kind = 1 ∧ 12 ≤ index.toNat ∨ kind = 2 ∧ index ≠ 0
          ∨ kind = 3 ∧ 4 ≤ index.toNat →
        ∃ l, exec (.faultClear tag [kind, index] current) s = .next { s with link := l }
          ∧ s.link.answered ⟨0x05, tag, [kind, index]⟩ .badParameter .none l)

/-! ### Claims -/

/-- The reply to MOVE by the table of R33, its first case that applies. -/
def Spec.moveReply (s : State) (axis target : Nat) : ReplyStatus :=
  if h : axis < 8 ∧ target ≤ 8191 then
    let a : Fin 8 := ⟨axis, h.1⟩
    let x := s.axis a
    if s.power.state ≠ .awake ∨ s.brace.state ≠ .idle then .refused
    else if s.owner a = .brace then .refused
    else if x.activity = .faulted then .refused
    else if s.owner a = .switch ∨ s.owner a = .plan then .busy
    else if x.moving = true ∧ (∃ y, s.slotOf a = some y ∧ y.owner = .link) then .busy
    else if x.activity ≠ .idle then .busy
    else if x.referenced = false then .refused
    else match x.travel with
      | none => .refused
      | some travel => if target < x.cfg.margin ∨ travel - x.cfg.margin < target then .badParameter else .accepted
  else .badParameter

/-- The reply to JOG by the table of R33. -/
def Spec.jogReply (s : State) (axis direction : Nat) : ReplyStatus :=
  if h : axis < 8 ∧ direction ≤ 1 then
    let a : Fin 8 := ⟨axis, h.1⟩
    if s.power.state ≠ .awake ∨ s.brace.state ≠ .idle then .refused
    else if s.owner a = .brace then .refused
    else if (s.axis a).activity = .faulted then .refused
    else if s.owner a = .switch ∨ s.owner a = .plan then .busy
    else if (s.axis a).moving = true ∧ (∃ y, s.slotOf a = some y ∧ y.owner = .link) then .busy
    else .accepted
  else .badParameter

/-- The reply to REFERENCE by the table of R18; an axis owned by BRACE is met by the case before, for a brace is then under way. -/
def Spec.referenceReply (s : State) (axis : Nat) : ReplyStatus :=
  if h : axis < 8 then
    let a : Fin 8 := ⟨axis, h⟩
    if s.power.state ≠ .awake ∨ s.brace.state ≠ .idle then .refused
    else if (s.axis a).activity = .faulted ∨ (s.axis a).latch ≠ .none then .refused
    else if (s.axis a).moving = true ∨ s.owner a ≠ .none then .busy
    else .accepted
  else .badParameter

/-- The reply to HALT by the table of R40. -/
def Spec.haltReply (s : State) (axis : Nat) : ReplyStatus :=
  if axis = 255 then .done
  else if h : axis < 8 then
    match s.owner ⟨axis, h⟩ with
    | .none | .link => .done
    | .switch | .plan => .busy
    | .brace => .refused
  else .badParameter

/-- MOVE, JOG, REFERENCE and HALT are answered by their tables; answered otherwise than ACCEPTED or DONE they change nothing but the
reply (R18, R33, R40). -/
def Spec.ClaimCommandsFollowTheirTables : Prop :=
  ∀ (s : State) (tag b hi lo : Byte), s.awaits →
    (∃ t, exec (.move tag [b, hi, lo]) s = .next t
      ∧ t.link.slot = .replied ⟨0x10, tag, [b, hi, lo]⟩ (Spec.moveReply s b.toNat (hi.toNat * 256 + lo.toNat)) .none
      ∧ (Spec.moveReply s b.toNat (hi.toNat * 256 + lo.toNat) ≠ .accepted → t = { s with link := t.link }))
    ∧ (∃ t, exec (.jog tag [b, lo]) s = .next t
      ∧ t.link.slot = .replied ⟨0x11, tag, [b, lo]⟩ (Spec.jogReply s b.toNat lo.toNat) .none
      ∧ (Spec.jogReply s b.toNat lo.toNat ≠ .accepted → t = { s with link := t.link }))
    ∧ (∃ t, exec (.reference tag [b]) s = .next t
      ∧ t.link.slot = .replied ⟨0x13, tag, [b]⟩ (Spec.referenceReply s b.toNat) .none
      ∧ (Spec.referenceReply s b.toNat ≠ .accepted → t = { s with link := t.link }))
    ∧ (∃ t, exec (.halt tag [b]) s = .next t
      ∧ t.link.slot = .replied ⟨0x12, tag, [b]⟩ (Spec.haltReply s b.toNat) .none
      ∧ (Spec.haltReply s b.toNat ≠ .done → t = { s with link := t.link }))

/-- A state in which a claim of one axis starts at once: the axis is free and unlatched, a slot and the units are free, nothing is
queued, HELD, planned or braced, and no parking invalidation is due (R36, R37, R50). -/
abbrev Spec.freeToStart (s : State) (a : Fin 8) : Prop :=
  s.atEase ∧ s.unclaimed ∧ (s.axis a).activity = .idle ∧ (s.axis a).latch = .none ∧ s.owner a = .none ∧ s.slotOf a = none
    ∧ s.claims.slots[0] = none ∧ s.gov.supply = .normal ∧ s.power.standing = .invalid
    ∧ (s.axis a).cfg.ratedUnits + s.motorUnits + (if s.braceCellQueued = true then s.gov.pumpGrant else 0) ≤ s.gov.limit

/-- What a claim that an owner makes leaves where its start is given at once: the axis driven as its rule says, owned by that
owner, in slot 0 with its rated units charged, and the queue empty; other axes, plans, profiles, massage, brace, stored records
and power as before (R4, R5, R10, R18, R27, R37, R47). -/
def Spec.startedFor (o : Owner) (s t : State) (a : Fin 8) (x : Axis) (kind : MoveKind) : Prop :=
  t.axes = s.axes.set a x ∧ t.owner a = o
    ∧ t.claims.slots = s.claims.slots.set 0 (some ⟨a, o, kind, (s.axis a).cfg.ratedUnits⟩) ∧ t.claims.queue = []
    ∧ t = { s with
        axes := t.axes, claims := t.claims, gov := { s.gov with pumpGrant := t.gov.pumpGrant }, zones := t.zones, cells := t.cells
        switches := t.switches, link := t.link }
    ∧ t.claims = { s.claims with owners := s.claims.owners.set a o, slots := t.claims.slots }

/-- The move record of a start, with the settings taken at it (R1, R5). -/
def Spec.moveOf (x : Axis) (kind : MoveKind) (target : Option Nat) (leg : Option Leg) (jogDir : Option Dir) : Move :=
  ⟨kind, target, leg, false, none, none, jogDir, x.cfg.ratedUnits, x.cfg.stallWindow, x.cfg.coastLead, x.cfg.tolerance⟩

/-- Where a start can be given at once, an accepted MOVE drives its axis toward the target, a JOG of an unreferenced axis drives
it in the direction named, a JOG of a referenced axis toward the soft limit in that direction, and a REFERENCE makes its axis
unreferenced, with its travel absent, and drives it in direction − (R4, R5, R10, R18). A MOVE to a position within tolerance
completes without driving, with result REACHED, and its slot and owner are given back. -/
def Obligations.AcceptedClaimsStartTheirAxis : Prop :=
  ∀ (s : State) (tag b : Byte) (a : Fin 8), s.awaits → Spec.freeToStart s a → b.toNat = a.val →
    (∀ hi lo : Byte, Spec.moveReply s b.toNat (hi.toNat * 256 + lo.toNat) = .accepted →
      (s.axis a).cfg.tolerance < Spec.apart (s.axis a).position (hi.toNat * 256 + lo.toNat) →
      ∃ t, exec (.move tag [b, hi, lo]) s = .next t
        ∧ t.switches = s.switches ∧ Spec.startedFor .link s t a
            (Spec.driving (if (s.axis a).position < hi.toNat * 256 + lo.toNat then .plus else .minus)
              (Spec.moveOf (s.axis a) .targeted (some (hi.toNat * 256 + lo.toNat)) none none) (s.axis a)) .targeted)
    ∧ (∀ hi lo : Byte, Spec.moveReply s b.toNat (hi.toNat * 256 + lo.toNat) = .accepted →
      Spec.apart (s.axis a).position (hi.toNat * 256 + lo.toNat) ≤ (s.axis a).cfg.tolerance →
      ∃ t, exec (.move tag [b, hi, lo]) s = .next t
        ∧ t.axes = s.axes.set a { s.axis a with stallCount := 0, lastResult := some .reached }
        ∧ t.owner a = .none ∧ t.claims.queue = [] ∧ t.slotOf a = none)
    ∧ (∀ d : Byte, d.toNat ≤ 1 → (s.axis a).referenced = false →
      ∃ t, exec (.jog tag [b, d]) s = .next t
        ∧ t.switches = s.switches ∧ Spec.startedFor .link s t a
            (Spec.driving (if d = 0 then .plus else .minus)
              (Spec.moveOf (s.axis a) .jog none none (some (if d = 0 then .plus else .minus))) (s.axis a)) .jog)
    ∧ (∀ travel, (s.axis a).referenced = true → (s.axis a).travel = some travel →
      ((s.axis a).position + (s.axis a).cfg.tolerance < travel - (s.axis a).cfg.margin →
        ∃ t, exec (.jog tag [b, 0]) s = .next t
          ∧ t.switches = s.switches ∧ Spec.startedFor .link s t a
              (Spec.driving .plus (Spec.moveOf (s.axis a) .jog (some (travel - (s.axis a).cfg.margin)) none (some .plus)) (s.axis a))
              .jog)
      ∧ ((s.axis a).cfg.margin + (s.axis a).cfg.tolerance < (s.axis a).position →
        ∃ t, exec (.jog tag [b, 1]) s = .next t
          ∧ t.switches = s.switches ∧ Spec.startedFor .link s t a
              (Spec.driving .minus (Spec.moveOf (s.axis a) .jog (some (s.axis a).cfg.margin) none (some .minus)) (s.axis a)) .jog))
    ∧ ∃ t, exec (.reference tag [b]) s = .next t
        ∧ t.switches = s.switches ∧ Spec.startedFor .link s t a
            (Spec.driving .minus (Spec.moveOf (s.axis a) .reference none (some .leg1) none)
              { s.axis a with referenced := false, travel := none }) .reference

/-- HALT of an axis that runs a LINK move brakes it with cause OWNER; the owner stays until the settle, and every other axis, owner
and entry is left (R11, R40). -/
def Spec.HaltBrakesALinkMove : Prop :=
  ∀ (s : State) (tag b : Byte) (a : Fin 8) (m : Move) (x : Slot), s.awaits → b.toNat = a.val → s.owner a = .link →
    (∀ e ∈ s.claims.queue, e.axis = a → e.owner ≠ .link) → (s.axis a).activity = .running → (s.axis a).move = some m →
    s.slotOf a = some x → x.owner = .link →
    ∃ l, exec (.halt tag [b]) s
        = .next { s with axes := s.axes.set a (Spec.braked .stopped { m with stopCause := some .owner } (s.axis a)), link := l }
      ∧ s.link.answered ⟨0x12, tag, [b]⟩ .done .none l

/-- MOVE, JOG, REFERENCE and HALT are answered by their tables and change nothing where they are not taken (R18, R33, R40,
`Spec.ClaimCommandsFollowTheirTables`); HALT of an axis that runs a LINK move brakes it with cause OWNER (R11, R40,
`Spec.HaltBrakesALinkMove`). -/
def Obligations.ClaimCommandsAndHalt : Prop := Spec.ClaimCommandsFollowTheirTables ∧ Spec.HaltBrakesALinkMove

/-- A state in which the switch pack may claim an axis: no plan, no brace, the contact RELEASED, and the pair free of jogs and
of the other contact. -/
abbrev Spec.freeToPress (s : State) (a : Fin 8) (d : Dir) : Prop :=
  s.atEase ∧ s.brace.state = .idle ∧ s.plans.current = none ∧ s.contact (.axis a d) = ⟨false, false⟩
    ∧ (s.contact (.axis a (oppositeDir d))).pressed = false ∧ s.pair a = ⟨false, .none⟩

/-- The scanner's record after a press of an axis contact whose claim gave the pair this jog standing. -/
def Spec.afterPress (s : State) (a : Fin 8) (d : Dir) (jog : JogStanding) : Switches :=
  Spec.withPair a ⟨false, jog⟩ (Spec.withContact (.axis a d) ⟨true, false⟩ s.switches)

/-- A SWITCH claim takes over an axis that runs a LINK move: the move is braked with cause PREEMPT (SWITCH), the owner is
SWITCH, and the entry waits for its axis (R29). A SWITCH claim on an axis that still moves for SWITCH is HELD, and nothing else
changes (R29, R30); at the settle the claimant is told and claims again, and here the jog starts (R30, R38, R107). A LINK claim
on an axis with a queued LINK entry replaces it: the old one is withdrawn ABORTED (REPLACED), which stands in the axis's last
result (R35, R41). -/
def Obligations.ClaimsTakeOverHoldAndReplace : Prop :=
  ∀ (s : State) (a : Fin 8) (d : Dir) (m : Move) (x : Slot),
    (Spec.freeToPress s a d → s.claims.queue = [] → s.owner a = .link → (s.axis a).activity = .running → (s.axis a).move = some m →
      s.slotOf a = some x → x.owner = .link →
      ∃ l, exec (.axisContactPress a d) s
          = .next { s with
              axes := s.axes.set a (Spec.braked .stopped { m with stopCause := some (.preempt .switch) } (s.axis a))
              claims := { s.claims with owners := s.claims.owners.set a .switch, queue := [⟨a, .switch, .jog, .dir d, none⟩] }
              switches := Spec.afterPress s a d (.admitted d), link := l }
        ∧ s.link.carriesOn l)
    ∧ (Spec.freeToPress s a d → (∀ e ∈ s.claims.queue, e.axis ≠ a) → s.owner a = .switch ∨ s.owner a = .none →
      (s.axis a).moving = true → s.slotOf a = some x → x.owner = .switch →
      ∃ l, exec (.axisContactPress a d) s
          = .next { s with
              claims := { s.claims with held := s.claims.held.set a { s.claims.held[a] with switch := true } }
              switches := Spec.afterPress s a d (.held d), link := l }
        ∧ s.link.carriesOn l)
    ∧ (s.atEase → s.brace.state = .idle → s.plans.current = none → s.claims.queue = [] → s.contact (.axis a d) = ⟨true, false⟩ →
      s.pair a = ⟨false, .held d⟩ → s.claims.held[a] = ⟨false, true, false⟩ → (s.axis a).activity = .stopping →
      (s.axis a).latch = .none → (s.axis a).referenced = false → (s.axis a).move = some m → m.stopCause = some .owner →
      s.slotOf a = some x → x.owner = .switch → s.owner a = .switch ∨ s.owner a = .none → s.slotCount a = 1 →
      s.gov.supply = .normal → s.power.standing = .invalid → s.braceCellQueued = false →
      (s.axis a).cfg.ratedUnits + s.motorUnits ≤ s.gov.limit →
      ∃ t, exec (.settle a) s = .next t
        ∧ t.axes = s.axes.set a
            { Spec.driving d (Spec.moveOf (s.axis a) .jog none none (some d)) (s.axis a) with lastResult := some .stopped }
        ∧ t.owner a = .switch ∧ t.claims.queue = [] ∧ t.claims.held[a] = ⟨false, false, false⟩ ∧ t.pair a = ⟨false, .admitted d⟩
        ∧ t.slotOf a = some ⟨a, .switch, .jog, (s.axis a).cfg.ratedUnits⟩)
    ∧ ∀ (tag b v : Byte) (old : Entry), s.awaits → s.brace.state = .idle → b.toNat = a.val → v.toNat ≤ 1 → s.owner a = .link →
      (s.axis a).activity = .idle → s.slotOf a = none → s.claims.queue = [old] → old.axis = a → old.owner = .link →
      s.gov.supply = .low →
      ∃ l, exec (.jog tag [b, v]) s
          = .next { s with
              axes := s.axes.set a { s.axis a with lastResult := some (.aborted .replaced) }
              claims := { s.claims with queue := [⟨a, .link, .jog, .dir (if v = 0 then .plus else .minus), none⟩] }, link := l }
        ∧ s.link.answered ⟨0x11, tag, [b, v]⟩ .accepted .none l

/-- A queued start that can begin at once when the arbiter reaches it, as far as its axis goes: a single jog of an axis that is
at rest, unlatched and unreferenced, without a slot (R36). -/
abbrev Spec.jogReady (s : State) (e : Entry) (d : Dir) : Prop :=
  e.kind = .jog ∧ e.goal = .dir d ∧ e.group = none ∧ (s.axis e.axis).activity = .idle ∧ (s.axis e.axis).referenced = false
    ∧ s.slotOf e.axis = none

/-- An admitted LINK entry stands behind every BRACE, SWITCH and LINK entry and ahead of every PLAN entry (R28). When the supply
returns to NORMAL the arbiter walks the queue from its head (R36): an entry whose axis still moves is passed over and stays, and
the one behind it starts; an entry that is free but whose units do not fit blocks, and nothing behind it starts. While the
parking standing is VALID an entry that is not BRACE's does not start: the invalidation is written first, the standing is
INVALIDATING and the entry blocks; a BRACE entry starts without waiting for it (R37, R188). The end of that write lets the entry
start (R188). -/
def Obligations.StartQueueIsWalkedInOrder : Prop :=
  ∀ (s : State) (e f : Entry) (d : Dir),
    (∀ (tag b v : Byte) (a : Fin 8) (before after : List Entry), s.awaits → s.brace.state = .idle → b.toNat = a.val → v.toNat ≤ 1 →
      s.owner a = .none → (s.axis a).activity = .idle → s.gov.supply = .low → s.claims.queue = before ++ after →
      (∀ x ∈ before, x.owner = .switch ∨ x.owner = .link) → (∀ x ∈ after, x.owner = .plan) →
      (∀ x ∈ s.claims.queue, x.axis ≠ a) →
      ∃ t, exec (.jog tag [b, v]) s = .next t ∧ t.link.slot = .replied ⟨0x11, tag, [b, v]⟩ .accepted .none
        ∧ t.claims = { s.claims with
            owners := s.claims.owners.set a .link
            queue := before ++ ⟨a, .link, .jog, .dir (if v = 0 then .plus else .minus), none⟩ :: after }
        ∧ t.axes = s.axes)
    ∧ (s.atEase → s.brace.state = .idle → s.plans.current = none → s.gov.supply = .low → s.braceCellQueued = false →
      s.claims.queue = [e, f] → e.axis ≠ f.axis → e.owner ≠ .brace → e.group = none → Spec.jogReady s f d →
      ((s.axis e.axis).moving = true → s.claims.slots[0] = none → s.power.standing = .invalid →
          (s.axis f.axis).cfg.ratedUnits + s.motorUnits ≤ s.gov.limit →
        ∃ t, exec (.supplyNormal 96) s = .next t ∧ t.claims.queue = [e]
          ∧ t.axes = s.axes.set f.axis
              (Spec.driving d (Spec.moveOf (s.axis f.axis) .jog none none (some d)) (s.axis f.axis))
          ∧ t.claims.slots = s.claims.slots.set 0 (some ⟨f.axis, f.owner, .jog, (s.axis f.axis).cfg.ratedUnits⟩))
      ∧ ((s.axis e.axis).activity = .idle → s.slotOf e.axis = none → s.gov.limit < (s.axis e.axis).cfg.ratedUnits + s.motorUnits →
        ∃ t, exec (.supplyNormal 96) s = .next t ∧ t.claims = s.claims ∧ t.axes = s.axes ∧ t.power = s.power))
    ∧ (s.atEase → s.brace.state = .idle → s.plans.current = none → s.gov.supply = .low → s.braceCellQueued = false →
      s.claims.queue = [f] → Spec.jogReady s f d → s.claims.slots[0] = none → s.power.standing = .valid → s.store.job = none →
      (s.axis f.axis).cfg.ratedUnits + s.motorUnits ≤ s.gov.limit →
      ∃ t, exec (.supplyNormal 96) s = .next t ∧ t.power = { s.power with standing := .invalidating }
        ∧ t.store = { s.store with job := some (.parking .cleared), parkingNext := .cleared, pendingParking := false }
        ∧ (f.owner ≠ .brace → t.claims = s.claims ∧ t.axes = s.axes)
        ∧ (f.owner = .brace → t.claims.queue = [] ∧ t.axes = s.axes.set f.axis
            (Spec.driving d (Spec.moveOf (s.axis f.axis) .jog none none (some d)) (s.axis f.axis))))
    ∧ ∀ r, s.atEase → s.brace.state = .idle → s.plans.current = none → s.gov.supply = .normal → s.braceCellQueued = false →
      s.claims.queue = [f] → Spec.jogReady s f d → s.claims.slots[0] = none → s.power.standing = .invalidating →
      s.store.job = some (.parking r) → r.valid = false → s.store.pendingParking = false →
      (s.axis f.axis).cfg.ratedUnits + s.motorUnits ≤ s.gov.limit →
      ∃ t, exec .retainedWriteEnd s = .next t ∧ t.power.standing = .invalid ∧ t.store.parkingArea = .good r ∧ t.claims.queue = []
        ∧ t.axes = s.axes.set f.axis (Spec.driving d (Spec.moveOf (s.axis f.axis) .jog none none (some d)) (s.axis f.axis))

/-! ### Supply budget -/

/-- SUPPLY_LIMIT is decided in the order of R45: out of 10 to 60 or below the brace sum BAD_PARAMETER, below what the axes and
the pump now hold BUSY, otherwise DONE with L at the value; a reply other than DONE leaves everything but the link. -/
def Spec.SupplyLimitFollowsItsTable : Prop :=
  ∀ (s : State) (tag b : Byte), s.awaits →
    ∃ t status, exec (.supplyLimit tag [b]) s = .next t ∧ t.link.slot = .replied ⟨0x48, tag, [b]⟩ status .none
      ∧ status = (if b.toNat < 10 ∨ 60 < b.toNat then .badParameter
          else if b.toNat < braceSum s.axes then .badParameter
          else if b.toNat < s.motorUnits + s.gov.pumpGrant then .busy
          else .done)
      ∧ (status = .done → t.settings = { s.settings with limit := b.toNat })
      ∧ (status ≠ .done → t = { s with link := t.link })

/-- The supply state becomes LOW on a reading below 9.0 V and NORMAL again on one above 9.5 V; any other reading keeps it. On
entering LOW every heater ceiling and applied duty is 0, and the pump is not RUNNING unless the fill queue holds a BRACE cell
(R55, R56). With nothing queued, what the axes are doing is not touched. -/
def Spec.SupplyStateFollowsTheVoltage : Prop :=
  ∀ (s : State) (reading : Nat), s.atEase →
    (∃ t, exec (.supplyLow reading) s = .next t
      ∧ t.gov.supply = (if reading < 90 then .low else s.gov.supply) ∧ t.sense.supply = reading
      ∧ (90 ≤ reading ∨ s.gov.supply = .low → ∃ l, t = { s with sense := { s.sense with supply := reading }, link := l })
      ∧ (reading < 90 → s.gov.supply = .normal → s.claims.queue = [] →
          t.axes = s.axes ∧ (∀ z : Fin 4, (t.zone z).ceiling = 0 ∧ (t.zone z).applied = 0 ∧ (t.zone z).mode = (s.zone z).mode)
            ∧ (s.braceCellQueued = false → t.cells.pump ≠ .running)))
    ∧ ∃ t, exec (.supplyNormal reading) s = .next t
      ∧ t.gov.supply = (if 95 < reading then .normal else s.gov.supply) ∧ t.sense.supply = reading
      ∧ (reading ≤ 95 ∨ s.gov.supply = .normal → ∃ l, t = { s with sense := { s.sense with supply := reading }, link := l })

/-- SUPPLY_LIMIT is decided in the order of R45 (`Spec.SupplyLimitFollowsItsTable`). The supply state becomes LOW on a reading
below 9.0 V and NORMAL again on one above 9.5 V, and on entering LOW every ceiling is 0 and the pump not RUNNING unless it fills
for BRACE (R55, R56, `Spec.SupplyStateFollowsTheVoltage`). -/
def Obligations.SupplyLimitAndState : Prop := Spec.SupplyLimitFollowsItsTable ∧ Spec.SupplyStateFollowsTheVoltage

/-! ### Move plans -/

/-- PLAN_LOAD with descriptors that are all in range is BUSY while CURRENT is occupied and otherwise writes every one of them,
and no other; with anything out of range it is BAD_PARAMETER and writes none (R62). -/
def Obligations.PlanLoadWritesWhole : Prop :=
  ∀ (s : State) (tag : Byte) (payload : List Byte), s.awaits →
    (readPlanLoad payload = none →
      ∃ l, exec (.planLoad tag payload) s = .next { s with link := l } ∧ s.link.answered ⟨0x20, tag, payload⟩ .badParameter .none l)
    ∧ ∀ ds, readPlanLoad payload = some ds →
      (s.plans.current.isSome →
        ∃ l, exec (.planLoad tag payload) s = .next { s with link := l } ∧ s.link.answered ⟨0x20, tag, payload⟩ .busy .none l)
      ∧ (s.plans.current = none →
        ∃ table l, exec (.planLoad tag payload) s = .next { s with plans := { s.plans with table := table }, link := l }
          ∧ s.link.answered ⟨0x20, tag, payload⟩ .done .none l
          ∧ (∀ i d, (i, d) ∈ ds → table[i] = d) ∧ (∀ i : Fin 32, (∀ d, (i, d) ∉ ds) → table[i] = s.plans.table[i]))

/-- An axis that a plan's claim finds free and that has some way to go to a target within its soft limits. -/
abbrev Spec.readyFor (s : State) (a : Fin 8) (target : Nat) : Prop :=
  (s.axis a).activity = .idle ∧ (s.axis a).latch = .none ∧ s.owner a = .none ∧ s.slotOf a = none ∧ (s.axis a).referenced = true
    ∧ (∃ travel, (s.axis a).travel = some travel ∧ (s.axis a).cfg.margin ≤ target ∧ target ≤ travel - (s.axis a).cfg.margin)
    ∧ (s.axis a).cfg.tolerance < Spec.apart (s.axis a).position target

/-- An axis at the start of a targeted move (R4, R5). -/
def Spec.targeted (target : Nat) (x : Axis) : Axis :=
  Spec.driving (if x.position < target then .plus else .minus) (Spec.moveOf x .targeted (some target) none none) x

/-- PLAN_RUN is decided in the order of R64; accepted, its reply names the slot taken, and with CURRENT occupied the plan waits
in NEXT, nothing else changing. With CURRENT empty the plan is RUNNING there at its first step: a PAUSE has its time (R70), and
a MOVE of one axis that can start at once has started it under PLAN (R66 to R69). A grouped MOVE of two axes starts both
together, and with one drive slot free for the two it starts neither: both wait in the queue as one group (R28, R34, R36, R37).
A reply that is not ACCEPTED leaves everything but the link. -/
def Obligations.PlanRunFollowsItsTable : Prop :=
  ∀ (s : State) (tag i p n : Byte), s.awaits →
    ∃ t status, exec (.planRun tag [i, p, n]) s = .next t
      ∧ status = (if h : i.toNat < 32 ∧ p.toNat ≤ 1 ∧ n.toNat ≤ 1 then
            if s.brace.state ≠ .idle then ReplyStatus.refused
            else if s.plans.vehicle = .moving then .refused
            else if s.plans.table[i.toNat]'h.1 = none then .refused
            else if s.plans.current.isSome = true ∧ s.plans.next.isSome = true then .busy
            else .accepted
          else .badParameter)
      ∧ (status ≠ .accepted → t = { s with link := t.link } ∧ t.link.slot = .replied ⟨0x21, tag, [i, p, n]⟩ status .none)
      ∧ (status = .accepted → s.plans.current = none →
          t.link.slot = .replied ⟨0x21, tag, [i, p, n]⟩ .accepted (.content (.planSlot .current)))
      ∧ (status = .accepted → s.plans.current = none → ∀ h : i.toNat < 32, ∀ length next,
          s.plans.table[i.toNat] = some (.pause length next) →
          ∃ q, t = { s with plans := { s.plans with current := some q }, link := t.link }
            ∧ q.kind = .chain ⟨i.toNat, h⟩ ∧ q.state = .running ∧ q.step = some (.descriptor ⟨i.toNat, h⟩) ∧ q.steps = 1
            ∧ q.pauseLeft = some (length * 10) ∧ q.inFlight = [] ∧ q.notify = (n == 1)
            ∧ q.policy = (if p = 0 then .stopError else .endQuiet))
      ∧ (status = .accepted → ∀ (a : Fin 8) (h : i.toNat < 32) (target travel : Nat) (group : Bool) (next : Option (Fin 32)),
          Spec.freeToStart s a → (s.axis a).referenced = true → (s.axis a).travel = some travel →
          (s.axis a).cfg.margin ≤ target → target ≤ travel - (s.axis a).cfg.margin →
          (s.axis a).cfg.tolerance < Spec.apart (s.axis a).position target →
          s.plans.table[i.toNat] = some (.move [⟨a, .absolute target⟩] group true next) →
          t.switches = s.switches
          ∧ t.axes = s.axes.set a
              (Spec.driving (if (s.axis a).position < target then .plus else .minus)
                (Spec.moveOf (s.axis a) .targeted (some target) none none) (s.axis a))
          ∧ t.owner a = .plan
          ∧ ∃ q, t.plans.current = some q ∧ q.state = .running ∧ q.entries = [⟨a, some target, .started⟩] ∧ q.inFlight = [a])
      ∧ (status = .accepted → ∀ (a c : Fin 8) (h : i.toNat < 32) (targetA targetC : Nat) (wait : Bool) (next : Option (Fin 32)),
          a ≠ c → s.plans.current = none → s.claims.queue = [] → s.gov.supply = .normal → s.power.standing = .invalid →
          s.braceCellQueued = false → Spec.readyFor s a targetA → Spec.readyFor s c targetC → s.claims.slots[0] = none →
          (s.axis a).cfg.ratedUnits + (s.axis c).cfg.ratedUnits + s.motorUnits ≤ s.gov.limit →
          s.plans.table[i.toNat] = some (.move [⟨a, .absolute targetA⟩, ⟨c, .absolute targetC⟩] true wait next) →
          (s.claims.slots[1] = none → wait = true →
            t.axes = (s.axes.set a (Spec.targeted targetA (s.axis a))).set c (Spec.targeted targetC (s.axis c))
            ∧ t.claims = { s.claims with
                owners := (s.claims.owners.set a .plan).set c .plan
                slots := (s.claims.slots.set 0 (some ⟨a, .plan, .targeted, (s.axis a).cfg.ratedUnits⟩)).set 1
                  (some ⟨c, .plan, .targeted, (s.axis c).cfg.ratedUnits⟩) }
            ∧ ∃ q, t.plans.current = some q ∧ q.entries = [⟨a, some targetA, .started⟩, ⟨c, some targetC, .started⟩]
              ∧ q.inFlight = [a, c])
          ∧ (s.claims.slots[1].isSome → s.claims.slots[2].isSome →
            t.axes = s.axes
            ∧ (∃ g, t.claims = { s.claims with
                owners := (s.claims.owners.set a .plan).set c .plan
                queue := [⟨a, .plan, .targeted, .target targetA, some g⟩, ⟨c, .plan, .targeted, .target targetC, some g⟩] })
            ∧ ∃ q, t.plans.current = some q ∧ q.entries = [⟨a, some targetA, .queued⟩, ⟨c, some targetC, .queued⟩]))
      ∧ (status = .accepted → s.plans.current.isSome → ∀ h : i.toNat < 32, ∃ q,
          t = { s with plans := { s.plans with next := some q }, link := t.link }
          ∧ s.link.answered ⟨0x21, tag, [i, p, n]⟩ .accepted (.content (.planSlot .next)) t.link
          ∧ q.kind = .chain ⟨i.toNat, h⟩ ∧ q.source = .link ∧ q.policy = (if p = 0 then .stopError else .endQuiet)
          ∧ q.notify = (n == 1) ∧ q.state = .waiting ∧ q.step = none ∧ q.steps = 0 ∧ q.inFlight = [] ∧ q.partials = .empty)

/-- What a cancel of a RUNNING plan leaves of it while its moves settle (R78): ENDING with ABORTED (CANCEL), its pause stopped. -/
def Spec.cancelled (p : Plan) (discard : Option Reason) : Plan :=
  { p with state := .ending, outcome := some (.aborted .cancel), pauseLeft := none, nextDiscard := discard }

/-- PLAN_CANCEL is answered DONE (R78; said where nothing of another owner is queued and no brace is under way). Of NEXT or ALL
it empties NEXT, whatever CURRENT holds, the discard being kept for the last result; with CURRENT ENDING it does no more, and
with CURRENT empty nothing. Of CURRENT or ALL a RUNNING plan with moves in flight is ENDING with ABORTED (CANCEL), its running
moves braked with cause OWNER; with none in flight it has left CURRENT and is the last result. A NEXT kept by a cancel of
CURRENT waits in the first case, and in the second is promoted and begins (R65), here with a pause. -/
def Obligations.PlanCancelEmptiesItsTarget : Prop :=
  ∀ (s : State) (tag b : Byte), s.awaits → b.toNat ≤ 2 →
    ∃ t, exec (.planCancel tag [b]) s = .next t ∧ t.link.slot = .replied ⟨0x22, tag, [b]⟩ .done .none
      ∧ (b = 1 → t = { s with
          plans := if s.plans.next.isSome then
              { s.plans with current := s.plans.current.map fun p => { p with nextDiscard := some .cancel }, next := none }
            else s.plans
          link := t.link })
      ∧ (b ≠ 1 → s.plans.current = none → s.plans.next = none → t = { s with link := t.link })
      ∧ (∀ p, s.plans.current = some p → p.state = .ending →
          (b = 0 → t = { s with link := t.link })
          ∧ (b = 2 → t = { s with
              plans := { s.plans with
                current := some { p with nextDiscard := if s.plans.next.isSome then some .cancel else p.nextDiscard }, next := none }
              link := t.link }))
      ∧ (∀ p, s.plans.current = some p → p.state = .running → s.claims.queue = [] → s.brace.state = .idle →
          (∀ a : Fin 8, s.claims.held[a] = ⟨false, false, false⟩) → p.inFlight ≠ [] → b ≠ 1 →
          t.plans = { s.plans with
              current := some (Spec.cancelled p (if b = 2 ∧ s.plans.next.isSome then some .cancel else p.nextDiscard))
              next := if b = 2 then none else s.plans.next }
          ∧ (∀ (a : Fin 8) (m : Move), (s.axis a).activity = .running → s.movingFor a .plan = true → (s.axis a).move = some m →
              t.axis a = Spec.braked .stopped { m with stopCause := some .owner } (s.axis a))
          ∧ (∀ a : Fin 8, s.movingFor a .plan = false → t.axis a = s.axis a)
          ∧ (∀ a : Fin 8, t.owner a = if s.owner a = .plan then .none else s.owner a))
      ∧ (∀ p, s.plans.current = some p → p.state = .running → p.inFlight = [] → s.claims.queue = [] → s.brace.state = .idle →
          (∀ a : Fin 8, s.owner a ≠ .plan ∧ s.movingFor a .plan = false) →
          (b = 2 ∨ (b = 0 ∧ s.plans.next = none) →
            t.plans.current = none ∧ t.plans.next = none
              ∧ t.plans.last = some ⟨p.kind, p.source, .aborted .cancel, p.partials, p.steps,
                  if s.plans.next.isSome then some .cancel else p.nextDiscard⟩)
          ∧ (∀ (q : Plan) (i : Fin 32) (length : Nat) (after : Option (Fin 32)), b = 0 → s.plans.next = some q → q.kind = .chain i →
              q.step = none → s.plans.table[i] = some (.pause length after) →
              t.plans.last = some ⟨p.kind, p.source, .aborted .cancel, p.partials, p.steps, p.nextDiscard⟩
              ∧ t.plans.next = none
              ∧ t.plans.current = some { q with
                  state := .running, step := some (.descriptor i), steps := q.steps + 1, entries := []
                  pauseLeft := some (length * 10) }))

/-- VEHICLE writes the vehicle state and is answered DONE; a value that is it already changes nothing. A change to MOVING
empties NEXT and leaves no plan RUNNING (R79). -/
def Spec.VehicleMovingEndsThePlans : Prop :=
  ∀ (s : State) (tag b : Byte), s.awaits → (s.plans.current = none → s.plans.next = none) → b.toNat ≤ 1 →
    ∃ t, exec (.vehicle tag [b]) s = .next t ∧ t.link.slot = .replied ⟨0x06, tag, [b]⟩ .done .none
      ∧ t.plans.vehicle = (if b = 1 then .moving else .parked)
      ∧ (s.plans.vehicle = t.plans.vehicle → t = { s with link := t.link })
      ∧ (b = 0 → t = { s with plans := { s.plans with vehicle := .parked }, link := t.link })
      ∧ (b = 1 → s.plans.vehicle = .parked → t.plans.next = none ∧ ∀ p, t.plans.current = some p → p.state ≠ .running)

/-- The end of a pause whose descriptor has END as its next, no moves being in flight: the plan leaves CURRENT COMPLETED, or PARTIAL
where it has partial reasons, and becomes the last result; after 64 steps with another next it is aborted with LOOP_LIMIT (R65, R70,
R72, R74). -/
def Spec.PauseExpiryEndsAChain : Prop :=
  ∀ (s : State) (p : Plan) (i : Fin 32) (length left : Nat) (next : Option (Fin 32)), s.atEase →
    s.plans.current = some p → p.state = .running → p.step = some (.descriptor i) → s.plans.table[i] = some (.pause length next) →
    p.pauseLeft = some left → p.inFlight = [] → p.atEnd = false → s.plans.next = none → s.claims.queue = [] → s.brace.state = .idle →
    (∀ a : Fin 8, s.owner a ≠ .plan ∧ s.movingFor a .plan = false) →
    (next = none →
      ∃ l, exec .pauseExpiry s
          = .next { s with
              plans := { s.plans with
                current := none
                last := some ⟨p.kind, p.source, if p.partials = .empty then .completed else .partly, p.partials, p.steps, p.nextDiscard⟩ }
              link := l }
        ∧ s.link.carriesOn l)
    ∧ (next ≠ none → 64 ≤ p.steps →
      ∃ t, exec .pauseExpiry s = .next t ∧ t.plans.current = none
        ∧ t.plans.last = some ⟨p.kind, p.source, .aborted .loopLimit, p.partials, p.steps, p.nextDiscard⟩ ∧ t.axes = s.axes)

/-- VEHICLE writes the vehicle state, and a change to MOVING empties NEXT and leaves no plan RUNNING (R79,
`Spec.VehicleMovingEndsThePlans`). The end of a pause that has END as its next ends its chain COMPLETED or PARTIAL, and after 64
steps with another next the plan is aborted with LOOP_LIMIT (R65, R70, R72, R74, `Spec.PauseExpiryEndsAChain`). -/
def Obligations.VehicleAndPauseEndPlans : Prop := Spec.VehicleMovingEndsThePlans ∧ Spec.PauseExpiryEndsAChain

/-! ### Profiles and retained records -/

/-- A profile position set of a capture mask given as two payload bytes (R85, R185). -/
def Spec.maskBit (hi lo : Byte) (i : Nat) : Bool := (hi.toNat * 256 + lo.toNat).testBit i

/-- The record a store makes (R86): a selected axis's position where it is referenced, the lumbar targets up to 80, the zones' modes
with BOOST taken as AUTO, and the massage session where one is RUNNING; an unselected field keeps what a VALID slot holds. -/
def Spec.storedRecord (s : State) (p : Fin 6) (bit : Nat → Bool) : ProfileContent :=
  let old : ProfileContent := if (s.profile p).state = .valid then (s.profile p).content else .empty
  { positions := Vector.ofFn fun a : Fin 8 =>
      if bit a.val then (if (s.axis a).referenced then some (s.axis a).position else none) else old.positions[a]
    lumbar := if bit 8 then some (min (s.cell 8).target 80, min (s.cell 9).target 80) else old.lumbar
    heat := if bit 9 then
        some (s.zones.map fun z => match z.mode with
          | .off => .off
          | .manual d => .manual d
          | .auto sp => .auto sp
          | .boost sp => .auto sp)
      else old.heat
    massage := if bit 10 then
        (match s.massage.running, s.massage.active, s.massage.intensity with
          | true, some q, some i => some (q, i)
          | true, some q, none => some (q, 1)
          | _, _, _ => none)
      else old.massage }

/-- A slot whose working copy has been changed: not persisted, its write begun where none is in progress and pending otherwise
(R83, R187). -/
def Spec.markedForWriting (s t : State) (p : Fin 6) (st : ProfileState) (c : ProfileContent) (kind : ProfileActionKind)
    (source : Source) : Prop :=
  t = { s with
      profiles := s.profiles.set p ⟨st, c, false⟩, lastProfile := some ⟨kind, p, source, false, false, false, false⟩
      store := t.store, power := { s.power with standing := t.power.standing }, link := t.link }
    ∧ (s.store.job = none → s.store.pendingParking = false → (∀ q : Fin 6, s.store.pendingProfiles[q] = false) →
        t.store = { s.store with job := some (.profile p c) } ∧ t.power = s.power)
    ∧ (s.store.job ≠ none → t.store = { s.store with pendingProfiles := s.store.pendingProfiles.set p true } ∧ t.power = s.power)

/-- PROFILE_STORE is decided in the order of R85, and DONE makes the record of R86 in the slot; any other reply leaves
everything but the link. -/
def Obligations.ProfileStoreCapturesTheSeat : Prop :=
  ∀ (s : State) (tag b hi lo : Byte), s.awaits →
    ∃ t status, exec (.profileStore tag [b, hi, lo]) s = .next t
      ∧ t.link.slot = .replied ⟨0x29, tag, [b, hi, lo]⟩ status .none
      ∧ (status ≠ .done → t = { s with link := t.link })
      ∧ (b.toNat = 0 ∨ 6 < b.toNat ∨ hi.toNat * 256 + lo.toNat = 0 ∨ 2048 ≤ hi.toNat * 256 + lo.toNat → status = .badParameter)
      ∧ ∀ p : Fin 6, b.toNat = p.val + 1 → 1 ≤ hi.toNat * 256 + lo.toNat → hi.toNat * 256 + lo.toNat < 2048 →
          status = (if s.brace.state ≠ .idle then .refused
              else if ∃ a : Fin 8, (s.axis a).activity = .running ∨ (s.axis a).activity = .stopping then .busy
              else if Spec.storedRecord s p (Spec.maskBit hi lo) = .empty then .refused
              else .done)
          ∧ (status = .done → Spec.markedForWriting s t p .valid (Spec.storedRecord s p (Spec.maskBit hi lo)) .store .link)

/-- PROFILE_WRITE with a record in range makes it the slot's, VALID; PROFILE_ERASE empties the slot unless it is EMPTY and persisted
already; both DONE. Out of range they are BAD_PARAMETER without effect. PROFILE_READ changes nothing (R88, R89, R90). -/
def Obligations.ProfileWriteEraseAndRead : Prop :=
  ∀ (s : State) (tag : Byte) (payload : List Byte), s.awaits →
    (∀ p c, readProfileWrite payload = some (p, c) →
      ∃ t, exec (.profileWrite tag payload) s = .next t ∧ t.link.slot = .replied ⟨0x2A, tag, payload⟩ .done .none
        ∧ Spec.markedForWriting s t p .valid c .write .link)
    ∧ (readProfileWrite payload = none →
      ∃ l, exec (.profileWrite tag payload) s = .next { s with link := l }
        ∧ s.link.answered ⟨0x2A, tag, payload⟩ .badParameter .none l)
    ∧ (∀ (b : Byte) (p : Fin 6), b.toNat = p.val + 1 →
      ∃ t, exec (.profileErase tag [b]) s = .next t ∧ t.link.slot = .replied ⟨0x2C, tag, [b]⟩ .done .none
        ∧ (if (s.profile p).state = .empty ∧ (s.profile p).persisted = true then t = { s with link := t.link }
          else Spec.markedForWriting s t p .empty .empty .erase .link))
    ∧ (∀ (b : Byte) (p : Fin 6), b.toNat = p.val + 1 →
      ∃ l, exec (.profileRead tag [b]) s = .next { s with link := l }
        ∧ s.link.answered ⟨0x2B, tag, [b]⟩ .done (.bytes (s.profileRecord p)) l)
    ∧ ∀ b : Byte, b.toNat = 0 ∨ 6 < b.toNat →
      (∃ l, exec (.profileErase tag [b]) s = .next { s with link := l } ∧ s.link.answered ⟨0x2C, tag, [b]⟩ .badParameter .none l)
      ∧ ∃ l, exec (.profileRead tag [b]) s = .next { s with link := l } ∧ s.link.answered ⟨0x2B, tag, [b]⟩ .badParameter .none l

/-- RECALL is decided in the order of R92; not ACCEPTED it changes nothing but the reply. Accepted behind a CURRENT plan, with
no comfort presets in the profile, it places a RECALL plan in NEXT and records the action, and nothing else changes. -/
def Obligations.RecallFollowsItsTable : Prop :=
  ∀ (s : State) (tag b : Byte), s.awaits →
    ∃ t status, exec (.recall tag [b]) s = .next t
      ∧ status = (if h : 1 ≤ b.toNat ∧ b.toNat - 1 < 6 then
            if s.brace.state ≠ .idle then ReplyStatus.refused
            else if s.plans.vehicle = .moving then .refused
            else if (s.profile ⟨b.toNat - 1, h.2⟩).state ≠ .valid then .refused
            else if s.plans.current.isSome = true ∧ s.plans.next.isSome = true then .busy
            else .accepted
          else .badParameter)
      ∧ (status ≠ .accepted → t = { s with link := t.link } ∧ t.link.slot = .replied ⟨0x28, tag, [b]⟩ status .none)
      ∧ (status = .accepted → t.link.slot = .replied ⟨0x28, tag, [b]⟩ .accepted
          (.content (.planSlot (if s.plans.current = none then .current else .next))))
      ∧ (status = .accepted → s.plans.current.isSome → ∀ p : Fin 6, b.toNat = p.val + 1 →
          (s.profile p).content.lumbar = none → (s.profile p).content.heat = none → (s.profile p).content.massage = none →
          ∃ q, t = { s with
              plans := { s.plans with next := some q }, lastProfile := some ⟨.recall, p, .link, false, false, false, false⟩
              link := t.link }
            ∧ q.kind = .recall p ∧ q.source = .link ∧ q.policy = .endQuiet ∧ q.notify = true ∧ q.state = .waiting ∧ q.step = none
            ∧ q.partials = .empty)

/-- Whether a position of a profile goes to phase A of a recall (R97): the axis is unreferenced or latched, or the position, set
into the soft limits, lies on the side that opens clearance, below the present position on SLIDE, LIFT, TILT, EXTEND and
SHOULDER and above it on RECLINE. -/
def Spec.goesFirst (x : Axis) (a : Fin 8) (position : Nat) : Bool :=
  x.referenced == false || x.latch != .none
    || (match a with
      | 0 | 1 | 2 | 4 | 5 => decide (x.intoLimits position < x.position)
      | 3 => decide (x.position < x.intoLimits position)
      | 6 | 7 => false)

/-- The axes of one phase of a recall, in ascending order (R97). -/
def Spec.phase (s : State) (p : Fin 6) (first : Bool) : List (Fin 8) :=
  (List.finRange 8).filter fun a => (s.profile p).content.positions[a].any fun x => Spec.goesFirst (s.axis a) a x == first

/-- The step entry of a phase for an axis of the profile that is not latched, once its claim is queued (R67, R68, R98). -/
def Spec.recallEntry (s : State) (p : Fin 6) (a : Fin 8) : StepEntry :=
  let x := s.axis a
  match (s.profile p).content.positions[a] with
  | some position =>
    if x.referenced = false then ⟨a, none, .skipped⟩
    else ⟨a, some (x.intoLimits position), if Spec.apart x.position (x.intoLimits position) ≤ x.cfg.tolerance then .complete else .queued⟩
  | none => ⟨a, none, .skipped⟩

/-- The comfort presets of a recalled profile as they stand after its acceptance (R94 to R96), with the action recorded (R101). -/
def Spec.presetsApplied (s t : State) (p : Fin 6) : Prop :=
  let c := (s.profile p).content
  let ready : Bool := c.massage.any fun q => (s.pattern q.1).state == .ready
  (∀ upper lower, c.lumbar = some (upper, lower) →
      (t.cell 8).target = upper ∧ (t.cell 8).owner = (if upper = 0 then .none else .support)
        ∧ (t.cell 9).target = lower ∧ (t.cell 9).owner = (if lower = 0 then .none else .support))
    ∧ (∀ i : Fin 12, 8 ≤ i.val → c.lumbar = none ∨ 10 ≤ i.val →
        (t.cell i).target = (s.cell i).target ∧ (t.cell i).owner = (s.cell i).owner)
    ∧ (∀ v, c.heat = some v → ∀ z : Fin 4, (t.zone z).mode = match v[z] with
        | .off => .off
        | .manual duty => .manual duty
        | .auto setpoint => .auto setpoint)
    ∧ (c.heat = none → ∀ z : Fin 4, (t.zone z).mode = (s.zone z).mode)
    ∧ (∀ q intensity, c.massage = some (q, intensity) → ready = true →
        t.massage = { s.massage with
          running := true, active := some q, staged := none, intensity := some intensity, counter := 0
          stepLeft := some ((s.pattern q).stepTime * 100), sessionLeft := some (s.massage.sessionLength * 60000) })
    ∧ (ready = false → t.massage = s.massage)
    ∧ t.lastProfile = some ⟨.recall, p, .link, c.lumbar.isSome, c.heat.isSome, ready, c.massage.isSome && !ready⟩

/-- The partial reasons a recall's plan has at its acceptance: PATTERN_NOT_READY where its massage preset names a pattern slot
that is not READY (R96). -/
def Spec.foundAtAcceptance (s : State) (p : Fin 6) : Partials :=
  { Partials.empty with patternNotReady := (s.profile p).content.massage.any fun q => (s.pattern q.1).state != .ready }

/-- The partial reasons that the entries of a phase add: a target set into the soft limits is CLAMPED, an unreferenced axis is
skipped UNREFERENCED (R67). -/
def Spec.foundInPhase (s : State) (p : Fin 6) (as : List (Fin 8)) (before : Partials) : Partials :=
  { before with
    clamped := before.clamped || as.any fun a => (s.axis a).referenced
      && (s.profile p).content.positions[a].any fun x => (s.axis a).intoLimits x != x
    unreferenced := before.unreferenced || as.any fun a => !(s.axis a).referenced }

/-- An accepted recall applies the comfort presets of its profile at once, whichever plan slot it takes: lumbar, heat and
massage as they are present, a massage preset whose pattern is not READY giving PATTERN_NOT_READY instead (R94 to R96). A
profile without positions passes both phases at once and ends (R72, R97, R98). In CURRENT phase A begins with the axes that open
clearance, each resolved and claimed in axis order, and the rest wait for phase B (R97, R98; said where the supply is LOW, so
that no entry starts). When the last move of phase A settles, phase B begins, its entry resolved as the axis then stands;
without a phase B the plan ends with two steps executed (R98). -/
def Obligations.RecallRunsInPhases : Prop :=
  ∀ (s : State) (tag b : Byte) (p : Fin 6), s.brace.state = .idle → b.toNat = p.val + 1 →
    (s.awaits → s.plans.vehicle = .parked → (s.profile p).state = .valid → s.claims.queue = [] →
      (s.plans.current.isSome → s.plans.next = none →
        ∃ t q, exec (.recall tag [b]) s = .next t ∧ t.plans = { s.plans with next := some q } ∧ t.axes = s.axes
          ∧ q.kind = .recall p ∧ q.state = .waiting ∧ q.partials = Spec.foundAtAcceptance s p ∧ Spec.presetsApplied s t p)
      ∧ (s.plans.current = none → s.plans.next = none → (∀ a : Fin 8, (s.profile p).content.positions[a] = none) →
        ∃ t, exec (.recall tag [b]) s = .next t ∧ t.axes = s.axes ∧ Spec.presetsApplied s t p
          ∧ t.plans = { s.plans with
              last := some ⟨.recall p, .link,
                if Spec.foundAtAcceptance s p = Partials.empty then .completed else .partly, Spec.foundAtAcceptance s p, 2, none⟩ })
      ∧ (s.plans.current = none → (s.profile p).content.lumbar = none → (s.profile p).content.heat = none →
        (s.profile p).content.massage = none → s.gov.supply = .low →
        (∀ a : Fin 8, s.owner a = .none ∧ (s.axis a).activity = .idle ∧ (s.axis a).latch = .none ∧ s.slotOf a = none) →
        (∃ a ∈ Spec.phase s p true, (Spec.recallEntry s p a).standing = .queued) →
        ∃ t q, exec (.recall tag [b]) s = .next t ∧ t.plans = { s.plans with current := some q } ∧ t.axes = s.axes
          ∧ q.kind = .recall p ∧ q.state = .running ∧ q.step = some .phaseA ∧ q.steps = 1 ∧ q.phaseB = Spec.phase s p false
          ∧ q.entries = (Spec.phase s p true).map (Spec.recallEntry s p)
          ∧ q.partials = Spec.foundInPhase s p (Spec.phase s p true) Partials.empty
          ∧ q.inFlight = (q.entries.filter (·.standing == .queued)).map (·.axis)
          ∧ t.claims.queue
            = (q.entries.filter (·.standing == .queued)).map fun e => ⟨e.axis, .plan, .targeted, .target (e.target.getD 0), none⟩))
    ∧ ∀ (a : Fin 8) (m : Move) (x : Slot) (r : Plan) (target : Nat), s.atEase → s.gov.supply = .low → s.claims.queue = [] →
      (∀ c : Fin 8, s.claims.held[c] = ⟨false, false, false⟩) → (s.axis a).activity = .stopping → (s.axis a).latch = .none →
      (s.axis a).move = some m → m.stopCause = none → m.ended = some .coastLead → m.leg = none → m.target = some target →
      Spec.apart (s.axis a).position target ≤ m.tolerance → s.slotOf a = some x → x.owner = .plan → s.owner a = .plan →
      s.plans.current = some r → r.kind = .recall p → r.state = .running → r.step = some .phaseA → r.atEnd = false →
      r.inFlight = [a] → (∃ e ∈ r.entries, e.axis = a ∧ e.standing = .started) →
      (∀ e ∈ r.entries, e.axis = a ∨ e.standing = .skipped ∨ e.standing = .complete ∨ e.standing = .settled) →
      (∀ e ∈ r.entries, e.axis = a → e.standing = .started) →
      (r.phaseB = [] → s.plans.next = none →
        ∃ t, exec (.settle a) s = .next t ∧ t.axes = s.axes.set a (Spec.rested .idle .reached { s.axis a with stallCount := 0 })
          ∧ t.owner a = .none
          ∧ t.plans = { s.plans with
              current := none
              last := some ⟨r.kind, r.source, if r.partials = .empty then .completed else .partly, r.partials, r.steps + 1,
                r.nextDiscard⟩ })
      ∧ ∀ (c : Fin 8) (position : Nat), r.phaseB = [c] → c ≠ a → (s.profile p).state = .valid →
        (s.profile p).content.positions[c] = some position → (s.axis c).referenced = true → (s.axis c).latch = .none →
        (s.axis c).activity = .idle → s.owner c = .none →
        (s.axis c).cfg.tolerance < Spec.apart (s.axis c).position ((s.axis c).intoLimits position) →
        ∃ t, exec (.settle a) s = .next t ∧ t.axes = s.axes.set a (Spec.rested .idle .reached { s.axis a with stallCount := 0 })
          ∧ t.owner a = .none ∧ t.owner c = .plan
          ∧ t.claims.queue = [⟨c, .plan, .targeted, .target ((s.axis c).intoLimits position), none⟩]
          ∧ t.plans = { s.plans with
              current := some { r with
                step := some .phaseB, steps := r.steps + 1, pauseLeft := none, inFlight := [c]
                entries := [⟨c, some ((s.axis c).intoLimits position), .queued⟩]
                partials := { r.partials with
                  clamped := r.partials.clamped || (s.axis c).intoLimits position != position } } }

/-- What the writer does once no write is in progress (R187): the parking record is written first where it is pending, then the
lowest-numbered pending slot, with its content as it stands; a write of a valid parking record makes the standing VALID (R190). -/
def Spec.nextWrite (profiles : Vector Profile 6) (store store' : RetainedStore) (standing standing' : ParkingStanding) : Prop :=
  (store.pendingParking = true →
    store' = { store with job := some (.parking store.parkingNext), pendingParking := false }
      ∧ standing' = (if store.parkingNext.valid = true then .valid else standing))
  ∧ (store.pendingParking = false → ∀ q : Fin 6, store.pendingProfiles[q] = true →
      (∀ r : Fin 6, r < q → store.pendingProfiles[r] = false) →
      store' = { store with
          job := some (.profile q profiles[q].content), pendingProfiles := store.pendingProfiles.set q false } ∧ standing' = standing)
  ∧ (store.pendingParking = false → (∀ q : Fin 6, store.pendingProfiles[q] = false) →
      store' = { store with job := none } ∧ standing' = standing)

/-- The end of a retained-record write: a profile's image holds what the write carried, and the slot is persisted unless it is
pending again (R91); the parking record holds what its write carried, and the end of an invalidation makes the standing INVALID
(R188). The next write begins at once, the parking record first and then the lowest-numbered slot (R187). With nothing in
progress the event changes nothing (log 33, the model's choice). Said where nothing is queued. -/
def Obligations.WriteEndUpdatesTheImage : Prop :=
  ∀ s : State, s.atEase →
    (s.store.job = none → ∃ l, exec .retainedWriteEnd s = .next { s with link := l } ∧ s.link.carriesOn l)
    ∧ (∀ p c, s.store.job = some (.profile p c) →
      ∃ t, exec .retainedWriteEnd s = .next t ∧ t.store.profileAreas = s.store.profileAreas.set p (.good c)
        ∧ t.profiles = (if s.store.pendingProfiles[p] = true then s.profiles
            else s.profiles.set p { s.profile p with persisted := true })
        ∧ t = { s with
            profiles := t.profiles, store := t.store, power := { s.power with standing := t.power.standing }, link := t.link }
        ∧ Spec.nextWrite s.profiles { s.store with profileAreas := s.store.profileAreas.set p (.good c), job := none } t.store
            s.power.standing t.power.standing)
    ∧ (∀ r, s.store.job = some (.parking r) → s.claims.queue = [] →
      ∃ t, exec .retainedWriteEnd s = .next t ∧ t.store.parkingArea = .good r
        ∧ t = { s with store := t.store, power := { s.power with standing := t.power.standing }, link := t.link }
        ∧ Spec.nextWrite s.profiles { s.store with parkingArea := .good r, job := none } t.store
            (if r.valid = false ∧ s.power.standing = .invalidating ∧ s.store.pendingParking = false then .invalid
              else s.power.standing)
            t.power.standing)

/-! ### Switch pack -/

/-- A press in BRACING, BRACED or HOLDING is ignored: the contact is PRESSED and inert, an axis pair whose other contact is
PRESSED is opposed, and nothing else happens (R103, R108). A release makes the contact RELEASED and not inert; on an axis
contact a jog ADMITTED in its direction gets an owner stop and one HELD in it ends, and an opposed pair stays opposed until both
its contacts are RELEASED (R106, R108). The release of a contact that is not PRESSED, and the press of one that is, change
nothing (log 33, the model's choice). -/
def Obligations.IgnoredPressesAndReleases : Prop :=
  ∀ (s : State) (c : Contact), s.atEase →
    (s.contact c = ⟨false, false⟩ → s.brace.state = .bracing ∨ s.brace.state = .braced ∨ s.brace.state = .holding →
      (∀ a d, c = .axis a d → (s.contact (.axis a (oppositeDir d))).pressed = false) →
      ∃ l, exec (Spec.pressOf c) s = .next { s with switches := Spec.withContact c ⟨true, true⟩ s.switches, link := l }
        ∧ s.link.carriesOn l)
    ∧ (∀ a d, c = .axis a d → s.contact c = ⟨false, false⟩ →
      s.brace.state = .bracing ∨ s.brace.state = .braced ∨ s.brace.state = .holding →
      (s.contact (.axis a (oppositeDir d))).pressed = true → (s.pair a).jog = .none →
      ∃ l, exec (Spec.pressOf c) s
          = .next { s with switches := Spec.withPair a ⟨true, .none⟩ (Spec.withContact c ⟨true, true⟩ s.switches), link := l }
        ∧ s.link.carriesOn l)
    ∧ ((s.contact c).pressed = true → ∃ l, exec (Spec.pressOf c) s = .next { s with link := l } ∧ s.link.carriesOn l)
    ∧ ((s.contact c).pressed = false → ∃ l, exec (.contactRelease c) s = .next { s with link := l } ∧ s.link.carriesOn l)
    ∧ ((s.contact c).pressed = true → (∀ a d, c = .axis a d → (s.pair a) = ⟨false, .none⟩) →
      ∃ l, exec (.contactRelease c) s = .next { s with switches := Spec.withContact c ⟨false, false⟩ s.switches, link := l }
        ∧ s.link.carriesOn l)
    ∧ (∀ a d, c = .axis a d → (s.contact c).pressed = true → (s.pair a).opposed = true →
      ∃ l, exec (.contactRelease c) s
          = .next { s with
              switches := Spec.withPair a ⟨(s.contact (.axis a (oppositeDir d))).pressed, (s.pair a).jog⟩
                (Spec.withContact c ⟨false, false⟩ s.switches)
              link := l }
        ∧ s.link.carriesOn l)
    ∧ (∀ a d, c = .axis a d → (s.contact c).pressed = true → s.pair a = ⟨false, .held d⟩ →
      ∃ l, exec (.contactRelease c) s
          = .next { s with switches := Spec.withPair a ⟨false, .none⟩ (Spec.withContact c ⟨false, false⟩ s.switches), link := l }
        ∧ s.link.carriesOn l)
    ∧ ∀ a d m x, c = .axis a d → (s.contact c).pressed = true → s.pair a = ⟨false, .admitted d⟩ → (s.axis a).activity = .running →
      (s.axis a).move = some m → s.slotOf a = some x → x.owner = .switch → (∀ e ∈ s.claims.queue, e.axis = a → e.owner ≠ .switch) →
      ∃ l, exec (.contactRelease c) s
          = .next { s with
              axes := s.axes.set a (Spec.braked .stopped { m with stopCause := some .owner } (s.axis a))
              switches := Spec.withPair a ⟨false, .none⟩ (Spec.withContact c ⟨false, false⟩ s.switches)
              link := l }
        ∧ s.link.carriesOn l

/-- A taken press of an axis contact jogs its axis, where the start can be given at once: an unreferenced axis in the contact's
direction, a referenced one toward the soft limit in it. The jog standing is ADMITTED, the owner SWITCH (R32, R103, R105, R10).
On a pair that is opposed still, its other contact RELEASED, the press makes no claim and is recorded only (R108). -/
def Obligations.AxisPressStartsAJog : Prop :=
  ∀ (s : State) (a : Fin 8) (d : Dir), Spec.freeToStart s a → s.contact (.axis a d) = ⟨false, false⟩ →
    (s.contact (.axis a (oppositeDir d))).pressed = false →
    ((s.pair a).opposed = true →
      ∃ l, exec (.axisContactPress a d) s
          = .next { s with switches := Spec.withContact (.axis a d) ⟨true, false⟩ s.switches, link := l }
        ∧ s.link.carriesOn l)
    ∧ ((s.pair a).opposed = false → (s.axis a).referenced = false →
      ∃ t, exec (.axisContactPress a d) s = .next t
        ∧ t.switches = Spec.withPair a ⟨false, .admitted d⟩ (Spec.withContact (.axis a d) ⟨true, false⟩ s.switches)
        ∧ Spec.startedFor .switch s t a
            (Spec.driving d (Spec.moveOf (s.axis a) .jog none none (some d)) (s.axis a)) .jog)
    ∧ ∀ travel target, (s.pair a).opposed = false → (s.axis a).referenced = true → (s.axis a).travel = some travel →
      target = (match d with
        | .plus => travel - (s.axis a).cfg.margin
        | .minus => (s.axis a).cfg.margin) →
      (match d with
        | .plus => (s.axis a).position + (s.axis a).cfg.tolerance < target
        | .minus => target + (s.axis a).cfg.tolerance < (s.axis a).position) →
      ∃ t, exec (.axisContactPress a d) s = .next t
        ∧ t.switches = Spec.withPair a ⟨false, .admitted d⟩ (Spec.withContact (.axis a d) ⟨true, false⟩ s.switches)
        ∧ Spec.startedFor .switch s t a
            (Spec.driving d (Spec.moveOf (s.axis a) .jog (some target) none (some d)) (s.axis a)) .jog

/-- The profile slot of a memory button, counted from 0 (R111). -/
def Spec.slotOfButton (m : Fin 3) : Fin 6 := ⟨m.val, by omega⟩

/-- A taken press of SET opens the store window for 5 s, and its expiry closes it (R110). A press of a memory button inside the
window closes it and stores the eight positions and the lumbar targets in its slot, or is STORE_REFUSED; outside the window it
is ABORT where it found a plan RUNNING, and otherwise a recall, refused while the vehicle is MOVING and where the slot is not
VALID (R87, R93, R104, R111). -/
def Obligations.SetAndMemoryButtons : Prop :=
  ∀ s : State, s.atEase → s.brace.state = .idle →
    (s.contact .set = ⟨false, false⟩ → s.plans.current = none →
      ∃ l, exec .setPress s
          = .next { s with switches := { Spec.withContact .set ⟨true, false⟩ s.switches with window := some 5000 }, link := l }
        ∧ s.link.carriesOn l)
    ∧ (∃ l, exec .storeWindowExpiry s = .next { s with switches := { s.switches with window := none }, link := l }
        ∧ s.link.carriesOn l)
    ∧ ∀ m : Fin 3, s.contact (.mem m) = ⟨false, false⟩ →
      (s.plans.current = none → s.switches.window.isSome → (∀ a : Fin 8, (s.axis a).moving = false) →
        Spec.storedRecord s (Spec.slotOfButton m) (fun i => decide (i < 9)) ≠ .empty →
        ∃ t, exec (.memoryButtonPress m) s = .next t
          ∧ Spec.markedForWriting
              { s with
                switches := { Spec.withContact (.mem m) ⟨true, false⟩ s.switches with window := none, lastAction := .stored m } }
              t (Spec.slotOfButton m) .valid (Spec.storedRecord s (Spec.slotOfButton m) (fun i => decide (i < 9))) .store .switch)
      ∧ (s.plans.current = none → s.switches.window.isSome →
        (∃ a : Fin 8, (s.axis a).moving = true) ∨ Spec.storedRecord s (Spec.slotOfButton m) (fun i => decide (i < 9)) = .empty →
        ∃ l, exec (.memoryButtonPress m) s
            = .next { s with
                switches := { Spec.withContact (.mem m) ⟨true, false⟩ s.switches with window := none, lastAction := .storeRefused m }
                link := l }
          ∧ s.link.carriesOn l)
      ∧ (s.plans.current = none → s.switches.window = none →
        s.plans.vehicle = .moving ∨ (s.profile (Spec.slotOfButton m)).state ≠ .valid →
        ∃ l, exec (.memoryButtonPress m) s
            = .next { s with
                switches := { Spec.withContact (.mem m) ⟨true, false⟩ s.switches with
                  lastAction := .recallRefused m (if s.plans.vehicle = .moving then .vehicleMoving else .profileEmpty) }
                link := l }
          ∧ s.link.carriesOn l)
      ∧ (s.plans.current = none → s.switches.window = none → s.plans.vehicle = .parked →
        (s.profile (Spec.slotOfButton m)).state = .valid →
        ∃ t q, exec (.memoryButtonPress m) s = .next t ∧ t.switches.lastAction = .recall m .current
          ∧ t.lastProfile = some q ∧ q.kind = .recall ∧ q.slot = Spec.slotOfButton m ∧ q.source = .switch)
      ∧ ∀ p, s.plans.current = some p → p.state = .running → s.switches.window = none → s.claims.queue = [] →
        (∀ a : Fin 8, s.claims.held[a] = ⟨false, false, false⟩) →
        ∃ t, exec (.memoryButtonPress m) s = .next t ∧ t.switches.lastAction = .abort m ∧ t.plans.next = none
          ∧ ∀ q, t.plans.current = some q → q.state ≠ .running

/-- A press that opposes a jogging pair, with no brace and no plan: the jog is braked with cause OWNER and the pair's standing
is NONE (R105, R108). A press in SLEEP is recorded at once, is kept as a waking press and wakes the part; at the wake it is
taken: SET opens the store window, and an axis contact claims its axis, here queued behind the invalidation of the parking
record (R37, R113, R188, R191). The settle of a SWITCH jog whose contact is still held makes the contact inert and the standing
NONE; in an opposed pair, and for a contact let go, it changes nothing in the scanner (R106, R108). -/
def Obligations.SwitchJogsMeetTheirEnds : Prop :=
  ∀ (s : State) (a : Fin 8) (d : Dir) (m : Move) (x : Slot),
    (s.atEase → s.brace.state = .idle → s.plans.current = none → s.contact (.axis a d) = ⟨false, false⟩ →
      (s.contact (.axis a (oppositeDir d))).pressed = true → s.pair a = ⟨false, .admitted (oppositeDir d)⟩ →
      (s.axis a).activity = .running → (s.axis a).move = some m → s.slotOf a = some x → x.owner = .switch →
      (∀ e ∈ s.claims.queue, e.axis = a → e.owner ≠ .switch) →
      ∃ l, exec (.axisContactPress a d) s
          = .next { s with
              axes := s.axes.set a (Spec.braked .stopped { m with stopCause := some .owner } (s.axis a))
              switches := Spec.withPair a ⟨true, .none⟩ (Spec.withContact (.axis a d) ⟨true, false⟩ s.switches), link := l }
        ∧ s.link.carriesOn l)
    ∧ (∀ c : Contact, s.agenda = [] → s.power.held = false → s.power.state = .sleep → (s.contact c).pressed = false →
      ∃ l, exec (Spec.pressOf c) s
          = .next { s with
              switches := { Spec.withContact c ⟨true, (s.contact c).inert⟩ s.switches with waking := s.switches.waking ++ [c] }
              power := { s.power with wakeSource := some (s.power.wakeSource.getD .switch) }, link := l }
        ∧ s.link.carriesOn l)
    ∧ (s.agenda = [] → s.power.held = false → s.power.state = .sleep → s.power.wakeSource.isSome → s.power.activationHeld = false →
      s.brace.state = .idle → s.plans.current = none →
      (s.switches.waking = [.set] → (s.contact .set).pressed = true →
        ∃ t, exec .wake s = .next t ∧ t.power.state = .awake
          ∧ t.switches = { s.switches with waking := [], window := some 5000 })
      ∧ (s.switches.waking = [.axis a d] → (s.contact (.axis a d)).pressed = true →
        (s.contact (.axis a (oppositeDir d))).pressed = false → s.pair a = ⟨false, .none⟩ → (s.axis a).activity = .idle →
        s.owner a = .none → s.slotOf a = none → s.claims.slots[0] = none → s.claims.queue = [] → s.gov.supply = .normal →
        s.power.standing = .valid → s.store.job = none → s.braceCellQueued = false →
        (s.axis a).cfg.ratedUnits + s.motorUnits ≤ s.gov.limit →
        ∃ t, exec .wake s = .next t ∧ t.power.state = .awake ∧ t.axes = s.axes
          ∧ t.switches = Spec.withPair a ⟨false, .admitted d⟩ { s.switches with waking := [] }
          ∧ t.claims = { s.claims with
              owners := s.claims.owners.set a .switch, queue := [⟨a, .switch, .jog, .dir d, none⟩] }
          ∧ t.power.standing = .invalidating ∧ t.store.job = some (.parking .cleared)))
    ∧ (s.atEase → s.unclaimed → (s.axis a).activity = .stopping → (s.axis a).move = some m → m.jogDir = some d → m.leg = none →
      s.slotOf a = some x → x.owner = .switch → s.owner a = .switch →
      (m.ended = some .coastLead ∧ m.target.isSome) ∨ m.ended = some .stall ∨ m.ended = some .endStop ∨ m.stopCause.isSome
        ∨ (s.axis a).latch ≠ .none →
      (∀ target, m.ended = some .coastLead → m.target = some target → (s.axis a).latch = .none → m.stopCause = none →
        m.corrective = true ∨ Spec.apart (s.axis a).position target ≤ m.tolerance) →
      ∃ t, exec (.settle a) s = .next t ∧ t.axes = s.axes.set a (Spec.settledRecord m (s.axis a)) ∧ t.owner a = .none
        ∧ t.slotOf a = none
        ∧ (s.pair a = ⟨false, .admitted d⟩ → (s.contact (.axis a d)).pressed = true →
            t.switches = Spec.withPair a ⟨false, .none⟩ (Spec.withContact (.axis a d) ⟨true, true⟩ s.switches))
        ∧ ((s.pair a).opposed = true ∨ (s.contact (.axis a d)).pressed = false → t.switches = s.switches))

/-! ### Cells -/

/-- The cell controller's record with one cell's record replaced. -/
def Spec.withCell (c : Fin 12) (x : Cell) (u : CellUnit) : CellUnit := { u with cells := u.cells.set c x }

/-- A pressure reading is recorded as at most 120 and judged (R115, R117). A cell outside the fill queue is kept inside its
band, is vented above it and joins the queue below it; one at VENT stops venting at or below its target, however far; a queued cell leaves the queue at its
target with fill time 0, and is only recorded below it. A cell with a LEAK latch is only held once it is vented (R123). That a cell
at HOLD with target 0 and a pressure of 3 or 4 stays at HOLD, and that the reading of a VENT cell below its band lets it join no more
where its target was raised earlier, are the model's choices (logs 46, 26). -/
def Obligations.PressureReadingRegulates : Prop :=
  ∀ (s : State) (c : Fin 12) (reading : Nat), s.atEase →
    ((s.cell c).latch = .none → c ∉ s.cells.queue → (s.cell c).target ≤ min reading 120 + 4 → (s.cell c).valve ≠ .vent →
      ∃ l, exec (.pressureReading c reading) s
          = .next { s with
              cells := Spec.withCell c
                { s.cell c with
                  pressure := min reading 120
                  valve := if (s.cell c).target + 4 < min reading 120 then .vent else (s.cell c).valve } s.cells
              link := l }
        ∧ s.link.carriesOn l)
    ∧ ((s.cell c).latch = .none → c ∉ s.cells.queue → (s.cell c).valve = .vent → (s.cell c).owner ≠ .brace →
      ∃ l, exec (.pressureReading c reading) s
          = .next { s with
              cells := Spec.withCell c
                { s.cell c with
                  pressure := min reading 120
                  valve := if min reading 120 ≤ (if (s.cell c).target = 0 then 2 else (s.cell c).target) then .hold else .vent }
                s.cells
              link := l }
        ∧ s.link.carriesOn l)
    ∧ ((s.cell c).latch = .none → c ∉ s.cells.queue → min reading 120 + 4 < (s.cell c).target → (s.cell c).valve ≠ .vent →
      s.unclaimed →
      ∃ t, exec (.pressureReading c reading) s = .next t ∧ c ∈ t.cells.queue ∧ (t.cell c).pressure = min reading 120
        ∧ (t.cell c).target = (s.cell c).target ∧ (t.cell c).owner = (s.cell c).owner
        ∧ (t.cell c).valve = (if t.cells.pump = .running ∧ t.cells.queue.head? = some c then .fill else .hold))
    ∧ ((s.cell c).latch = .none → c ∈ s.cells.queue → min reading 120 < (s.cell c).target →
      ∃ l, exec (.pressureReading c reading) s
          = .next { s with cells := Spec.withCell c { s.cell c with pressure := min reading 120 } s.cells, link := l }
        ∧ s.link.carriesOn l)
    ∧ ((s.cell c).latch = .none → c ∈ s.cells.queue → (s.cell c).target ≤ min reading 120 → s.unclaimed →
      ∃ t, exec (.pressureReading c reading) s = .next t ∧ c ∉ t.cells.queue
        ∧ t.cell c = { s.cell c with
            pressure := min reading 120, fillTime := 0
            valve := if (s.cell c).target + 4 < min reading 120 then .vent else .hold })
    ∧ ((s.cell c).latch = .leak →
      ∃ l, exec (.pressureReading c reading) s
          = .next { s with
              cells := Spec.withCell c
                { s.cell c with
                  pressure := min reading 120
                  valve := if (s.cell c).valve = .vent ∧ min reading 120 ≤ 2 then .hold else (s.cell c).valve } s.cells
              link := l }
        ∧ s.link.carriesOn l)

/-- The leak of the cell that the pump fills latches it, opens its valve to VENT and takes it from the queue (R123). A pump
current above 15 A while the pump runs trips it: its grant is returned, its queue stays, and every queued valve is at HOLD
(R122). A rest due without a BRACE cell queued turns the running pump to RESTING (R121); the end of a rest sets the run time to
0 and leaves the pump IDLE, or RUNNING again where cells wait and its rated units fit. Where the pump or the cell is in no state
in which the event can arise, it changes nothing (log 33, and for a rest of an IDLE pump log 22: the model's choices). Currents are
in tenths of an ampere (log 47: the model's choice). -/
def Spec.PumpAndLeakEvents : Prop :=
  ∀ (s : State) (c : Fin 12) (current : Nat), s.atEase →
    (s.cells.pump ≠ .running ∨ s.cells.queue.head? ≠ some c →
      ∃ l, exec (.leak c) s = .next { s with link := l } ∧ s.link.carriesOn l)
    ∧ (s.cells.pump = .running → s.cells.queue.head? = some c → s.unclaimed →
      ∃ t, exec (.leak c) s = .next t ∧ (t.cell c).latch = .leak ∧ (t.cell c).valve = .vent ∧ c ∉ t.cells.queue
        ∧ (t.cell c).target = (s.cell c).target ∧ (t.cell c).owner = (s.cell c).owner)
    ∧ (s.cells.pump ≠ .running ∨ current ≤ 150 →
      ∃ l, exec (.pumpOvercurrent current) s = .next { s with sense := { s.sense with pumpCurrent := current }, link := l }
        ∧ s.link.carriesOn l)
    ∧ (s.cells.pump = .running → 150 < current → s.unclaimed →
      ∃ t, exec (.pumpOvercurrent current) s = .next t ∧ t.cells.pump = .tripped ∧ t.gov.pumpGrant = 0
        ∧ t.cells.queue = s.cells.queue ∧ (∀ d ∈ t.cells.queue, (t.cell d).valve = .hold) ∧ t.axes = s.axes)
    ∧ (s.cells.pump = .idle ∨ s.cells.pump = .resting ∨ s.cells.pump = .tripped →
      ∃ l, exec .pumpRestDue s = .next { s with link := l } ∧ s.link.carriesOn l)
    ∧ (s.cells.pump = .running → s.braceCellQueued = false → s.unclaimed →
      ∃ t, exec .pumpRestDue s = .next t ∧ t.cells.pump = .resting ∧ t.gov.pumpGrant = 0 ∧ t.cells.queue = s.cells.queue)
    ∧ (s.cells.pump = .running → ∃ l, exec .pumpRestEnd s = .next { s with link := l } ∧ s.link.carriesOn l)
    ∧ (s.cells.pump ≠ .running → s.cells.pump ≠ .resting →
      ∃ l, exec .pumpRestEnd s = .next { s with cells := { s.cells with runTime := 0 }, link := l } ∧ s.link.carriesOn l)
    ∧ (s.cells.pump = .resting → s.cells.queue = [] →
      ∃ l, exec .pumpRestEnd s = .next { s with cells := { s.cells with runTime := 0, pump := .idle }, link := l }
        ∧ s.link.carriesOn l)
    ∧ (s.cells.pump = .resting → s.cells.queue.head? = some c → s.gov.supply = .normal → s.gov.regime = false →
      s.gov.pumpRated + s.motorUnits ≤ s.gov.limit →
      ∃ t, exec .pumpRestEnd s = .next t ∧ t.cells.pump = .running ∧ t.gov.pumpGrant = s.gov.pumpRated ∧ t.cells.runTime = 0
        ∧ t.cells.queue = s.cells.queue ∧ (t.cell c).valve = .fill)

/-- The progress of a bolster, cell 10 or 11. -/
def Spec.bolster (b : Brace) (c : Fin 12) : BolsterProgress := if c = 10 then b.bolster10 else b.bolster11

/-- What becomes of a bolster that BRACE owns, during a brace with nothing queued to start (R126, R167): at its target it is
HELD, also where it has been vented to it or past it (log 49: the model's choice for one below it); below its band it joins the fill queue and is FILLING, or FAILED while the pump is TRIPPED; its leak, and the trip of the
pump while it is queued, make it FAILED; a cleared LEAK that lets it join the queue again makes it FILLING. A FAILED progress
sets BOLSTER_FAIL, which stays. -/
def Spec.BolsterProgressFollowsTheCells : Prop :=
  ∀ (s : State) (c : Fin 12), s.brace.state ≠ .idle → s.claims.queue = [] → c = 10 ∨ c = 11 → (s.cell c).owner = .brace →
    (∀ reading, s.atEase → (s.cell c).latch = .none →
      (c ∈ s.cells.queue → (s.cell c).target ≤ min reading 120 →
        ∃ t, exec (.pressureReading c reading) s = .next t ∧ c ∉ t.cells.queue ∧ Spec.bolster t.brace c = .held
          ∧ t.brace.bolsterFail = s.brace.bolsterFail)
      ∧ (c ∉ s.cells.queue → (s.cell c).valve = .vent → (s.cell c).target ≠ 0 → min reading 120 ≤ (s.cell c).target →
        ∃ t, exec (.pressureReading c reading) s = .next t ∧ c ∉ t.cells.queue ∧ (t.cell c).valve = .hold
          ∧ Spec.bolster t.brace c = .held ∧ t.brace.bolsterFail = s.brace.bolsterFail)
      ∧ (c ∉ s.cells.queue → (s.cell c).valve ≠ .vent → min reading 120 + 4 < (s.cell c).target →
        ∃ t, exec (.pressureReading c reading) s = .next t ∧ c ∈ t.cells.queue
          ∧ Spec.bolster t.brace c = (if s.cells.pump = .tripped then .failed else .filling)
          ∧ t.brace.bolsterFail = (s.brace.bolsterFail || decide (s.cells.pump = .tripped))))
    ∧ (s.atEase → s.cells.pump = .running → s.cells.queue.head? = some c →
      ∃ t, exec (.leak c) s = .next t ∧ Spec.bolster t.brace c = .failed ∧ t.brace.bolsterFail = true)
    ∧ (∀ current, s.atEase → s.cells.pump = .running → 150 < current → c ∈ s.cells.queue →
      ∃ t, exec (.pumpOvercurrent current) s = .next t ∧ t.cells.pump = .tripped ∧ Spec.bolster t.brace c = .failed
        ∧ t.brace.bolsterFail = true)
    ∧ ∀ (tag b : Byte) (current : Nat), s.awaits → b.toNat = c.val → (s.cell c).latch = .leak → c ∉ s.cells.queue →
      (s.cell c).pressure + 4 < (s.cell c).target → s.cells.pump ≠ .tripped →
      ∃ t, exec (.faultClear tag [1, b] current) s = .next t ∧ c ∈ t.cells.queue ∧ Spec.bolster t.brace c = .filling
        ∧ t.brace.bolsterFail = s.brace.bolsterFail

/-- The leak of the cell being filled latches and vents it (R123); the trip, the rest and the rest's end of the pump turn it off
and on again (R121, R122, `Spec.PumpAndLeakEvents`, with the choices of logs 22 and 33). During a brace each of them, and the
readings of the bolsters, move the bolster progress (R126, R167, `Spec.BolsterProgressFollowsTheCells`). -/
def Obligations.PumpLeakAndBolsterEvents : Prop := Spec.PumpAndLeakEvents ∧ Spec.BolsterProgressFollowsTheCells

/-- CELL_SET: a payload out of range is BAD_PARAMETER, a bolster named during a brace BUSY, both without effect; otherwise DONE, and
each cell named has its target, with owner SUPPORT, or NONE for target 0; other cells keep theirs (R116, R125). -/
def Obligations.CellSetFollowsItsTable : Prop :=
  ∀ (s : State) (tag : Byte) (payload : List Byte), s.awaits →
    (readCellSet payload = none →
      ∃ l, exec (.cellSet tag payload) s = .next { s with link := l } ∧ s.link.answered ⟨0x30, tag, payload⟩ .badParameter .none l)
    ∧ ∀ es, readCellSet payload = some es →
      (s.brace.state ≠ .idle → (∃ e ∈ es, e.1 = 10 ∨ e.1 = 11) →
        ∃ l, exec (.cellSet tag payload) s = .next { s with link := l } ∧ s.link.answered ⟨0x30, tag, payload⟩ .busy .none l)
      ∧ (s.unclaimed →
        ∃ t, exec (.cellSet tag payload) s = .next t ∧ t.link.slot = .replied ⟨0x30, tag, payload⟩ .done .none
          ∧ (∀ e ∈ es, (t.cell e.1).target = e.2 ∧ (t.cell e.1).owner = (if e.2 = 0 then .none else .support))
          ∧ (∀ c : Fin 12, (∀ e ∈ es, e.1 ≠ c) → (t.cell c).target = (s.cell c).target ∧ (t.cell c).owner = (s.cell c).owner)
          ∧ t = { s with cells := t.cells, gov := { s.gov with pumpGrant := t.gov.pumpGrant }, zones := t.zones, link := t.link })

/-! ### Massage -/

/-- PATTERN_LOAD of a header part in range and of a mask part, and PATTERN_SELECT (R128, R131): REFUSED for the active slot of a
running engine, or a mask part of a slot that is not LOADING, or a selection while the engine is OFF or of an EMPTY slot; otherwise
DONE, the slot LOADING with every mask off, READY with the masks given, or staged. A slot outside 0 to 7 is BAD_PARAMETER. Nothing
else changes. -/
def Obligations.PatternCommandsFollowTheirTables : Prop :=
  ∀ (s : State) (tag b period time : Byte) (masks : List Byte), s.awaits →
    (8 ≤ b.toNat → ∀ rest,
      (∃ l, exec (.patternLoadHeader tag (b :: 0 :: rest)) s = .next { s with link := l }
        ∧ s.link.answered ⟨0x31, tag, b :: 0 :: rest⟩ .badParameter .none l)
      ∧ (∃ l, exec (.patternLoadMask tag (b :: 1 :: rest)) s = .next { s with link := l }
        ∧ s.link.answered ⟨0x31, tag, b :: 1 :: rest⟩ .badParameter .none l)
      ∧ ∃ l, exec (.patternSelect tag [b]) s = .next { s with link := l } ∧ s.link.answered ⟨0x32, tag, [b]⟩ .badParameter .none l)
    ∧ ∀ p : Fin 8, b.toNat = p.val →
      (∃ l status, exec (.patternLoadHeader tag [b, 0, period, time]) s
          = .next { s with
              massage := if status = .done then
                  { s.massage with patterns := s.massage.patterns.set p ⟨.loading, period.toNat, time.toNat, Vector.replicate 8 0⟩ }
                else s.massage
              link := l }
        ∧ s.link.answered ⟨0x31, tag, [b, 0, period, time]⟩ status .none l
        ∧ status = (if period.toNat = 0 ∨ 16 < period.toNat ∨ time.toNat = 0 ∨ 20 < time.toNat then .badParameter
            else if s.massage.running = true ∧ s.massage.active = some p then .refused else .done))
      ∧ (masks.length = 16 →
        ∃ l status, exec (.patternLoadMask tag (b :: 1 :: masks)) s
            = .next { s with
                massage := if status = .done then
                    { s.massage with
                      patterns := s.massage.patterns.set p { s.pattern p with
                        state := .ready
                        masks := Vector.ofFn fun i =>
                          BitVec.ofNat 16 ((masks.getD (2 * i.val) 0).toNat * 256 + (masks.getD (2 * i.val + 1) 0).toNat) } }
                  else s.massage
                link := l }
          ∧ s.link.answered ⟨0x31, tag, b :: 1 :: masks⟩ status .none l
          ∧ status = (if s.massage.running = true ∧ s.massage.active = some p then .refused
              else if (s.pattern p).state = .loading then .done else .refused))
      ∧ ∃ l status, exec (.patternSelect tag [b]) s
          = .next { s with
              massage := if status = .done then { s.massage with staged := if s.massage.active = some p then none else some p }
                else s.massage
              link := l }
        ∧ s.link.answered ⟨0x32, tag, [b]⟩ status .none l
        ∧ status = (if s.massage.running = false ∨ (s.pattern p).state = .empty then .refused else .done)

/-- MASSAGE_START of a READY slot, with no brace: the engine is RUNNING from step 0 with the slot, the intensity and its timers,
each cell of 0 to 7 is owned by MASSAGE, and each without a latch has the intensity's pressure where the slot's mask is on for
step 0, and 0 where it is not; cells 8 to 11 and everything outside cells, engine, heat and supply are as before. Otherwise it
is BAD_PARAMETER or REFUSED without effect (R129, R130, R132). -/
def Obligations.MassageStartBeginsASession : Prop :=
  ∀ (s : State) (tag : Byte) (payload : List Byte), s.awaits →
    (readMassageStart payload = none →
      ∃ l, exec (.massageStart tag payload) s = .next { s with link := l }
        ∧ s.link.answered ⟨0x33, tag, payload⟩ .badParameter .none l)
    ∧ ∀ (b i : Byte) (p : Fin 8), payload = [b, i] → b.toNat = p.val → ∀ h : 1 ≤ i.toNat ∧ i.toNat - 1 < 5,
      (s.brace.state ≠ .idle ∨ (s.pattern p).state ≠ .ready →
        ∃ l, exec (.massageStart tag payload) s = .next { s with link := l } ∧ s.link.answered ⟨0x33, tag, payload⟩ .refused .none l)
      ∧ (s.unclaimed → (s.pattern p).state = .ready →
        ∃ t, exec (.massageStart tag payload) s = .next t ∧ t.link.slot = .replied ⟨0x33, tag, payload⟩ .done .none
          ∧ t.massage = { s.massage with
              running := true, active := some p, staged := none, intensity := some i.toNat, counter := 0
              stepLeft := some ((s.pattern p).stepTime * 100), sessionLeft := some (s.massage.sessionLength * 60000) }
          ∧ (∀ j : Fin 8, (t.cell (massageCell j)).owner = .massage
              ∧ (t.cell (massageCell j)).target =
                  if (s.cell (massageCell j)).latch = .leak then (s.cell (massageCell j)).target
                  else if (s.pattern p).masks[j].getLsbD 0 = true then s.massage.pressures[i.toNat - 1]'h.2 else 0)
          ∧ (∀ c : Fin 12, 8 ≤ c.val → (t.cell c).target = (s.cell c).target ∧ (t.cell c).owner = (s.cell c).owner)
          ∧ t = { s with
              massage := t.massage, cells := t.cells, gov := { s.gov with pumpGrant := t.gov.pumpGrant }, zones := t.zones
              link := t.link })

/-- What a halt of the engine leaves: it is OFF with its cause, and cells 0 to 7 have target 0 and owner NONE (R133). -/
def Spec.halted (cause : LastStop) (s t : State) : Prop :=
  t.massage = { s.massage with
      running := false, active := none, staged := none, intensity := none, counter := 0, stepLeft := none, sessionLeft := none
      lastStop := cause }
    ∧ (∀ j : Fin 8, (t.cell (massageCell j)).owner = .none ∧ (t.cell (massageCell j)).target = 0)
    ∧ (∀ c : Fin 12, 8 ≤ c.val → (t.cell c).target = (s.cell c).target ∧ (t.cell c).owner = (s.cell c).owner)
    ∧ t = { s with
        massage := t.massage, cells := t.cells, gov := { s.gov with pumpGrant := t.gov.pumpGrant }, zones := t.zones, link := t.link }

/-- MASSAGE_STOP and the session timer halt a running engine with causes STOP and EXPIRED, and leave an OFF one alone (R132,
R133). The step timer advances the step counter, wrapping to 0 at the pattern's period, where a staged slot that is READY
becomes the active one; the step shown is applied to the unlatched cells of 0 to 7, and its timer started (R130, R131). Either
timer's expiry while the engine is OFF changes nothing: it is that of a stopped timer (log 33, the model's choice). -/
def Obligations.MassageHaltsAndSteps : Prop :=
  ∀ (s : State) (tag : Byte),
    (s.awaits → s.massage.running = false →
      ∃ l, exec (.massageStop tag []) s = .next { s with link := l } ∧ s.link.answered ⟨0x34, tag, []⟩ .done .none l)
    ∧ (s.awaits → s.unclaimed → s.massage.running = true →
      ∃ t, exec (.massageStop tag []) s = .next t ∧ t.link.slot = .replied ⟨0x34, tag, []⟩ .done .none ∧ Spec.halted .stop s t)
    ∧ (s.atEase → s.massage.running = false →
      (∃ l, exec .sessionTimerExpiry s = .next { s with link := l } ∧ s.link.carriesOn l)
      ∧ ∃ l, exec .stepTimerExpiry s = .next { s with link := l } ∧ s.link.carriesOn l)
    ∧ (s.atEase → s.unclaimed → s.massage.running = true →
      (∃ t, exec .sessionTimerExpiry s = .next t ∧ Spec.halted .expired s t)
      ∧ ∀ (p q : Fin 8) (staged : Option (Fin 8)) (i n : Nat) (h : i - 1 < 5),
        s.massage.active = some p → s.massage.intensity = some i →
        (s.massage.counter + 1 < (s.pattern p).period ∧ q = p ∧ n = s.massage.counter + 1 ∧ staged = s.massage.staged
          ∨ (s.pattern p).period ≤ s.massage.counter + 1 ∧ n = 0
            ∧ ((s.massage.staged = some q ∧ (s.pattern q).state = .ready ∧ staged = none)
              ∨ (q = p ∧ staged = s.massage.staged ∧ ∀ r, s.massage.staged = some r → (s.pattern r).state ≠ .ready))) →
        ∃ t, exec .stepTimerExpiry s = .next t
          ∧ t.massage = { s.massage with
              active := some q, staged := staged, counter := n, stepLeft := some ((s.pattern q).stepTime * 100) }
          ∧ ∀ j : Fin 8, (s.cell (massageCell j)).latch = .none → (t.cell (massageCell j)).owner = .massage
              ∧ (t.cell (massageCell j)).target =
                  if (s.pattern q).masks[j].getLsbD n = true then s.massage.pressures[i - 1]'h else 0)

/-! ### Heat -/

/-- The demand of a zone by its latch and its mode (R139); 0 in AUTO with an INVALID temperature and no latch, which is log 53's, the model's
choice. -/
def Spec.demandOf (z : Zone) : Nat :=
  match z.latch, z.mode, z.temperature with
  | .none, .manual d, _ => min d z.maxDuty
  | .none, .auto sp, some t => min (5 * ((sp : Int) - t).toNat) z.maxDuty
  | .none, .boost _, _ => 100
  | _, _, _ => 0

/-- HEAT_SET of entries in range is DONE, in every brace and supply state: each zone named has its mode, a boost that is not
below its setpoint becoming AUTO at once, and its demand by R139; other zones keep mode, boost time and demand; every applied
duty is the lesser of demand and ceiling, and 0 where a latch is set or the mode is OFF. Only the zones change, and they keep
latch, temperature and max duty. Out of range it is BAD_PARAMETER without effect (R136, R138, R139, R140, R141). The demand 0 of an AUTO
zone with an INVALID temperature and no latch is the model's choice (log 53). -/
def Obligations.HeatSetWritesTheModes : Prop :=
  ∀ (s : State) (tag : Byte) (payload : List Byte), s.awaits →
    (readHeatSet payload = none →
      ∃ l, exec (.heatSet tag payload) s = .next { s with link := l } ∧ s.link.answered ⟨0x38, tag, payload⟩ .badParameter .none l)
    ∧ ∀ es, readHeatSet payload = some es →
      ∃ t, exec (.heatSet tag payload) s = .next t ∧ t = { s with zones := t.zones, link := t.link }
        ∧ s.link.answered ⟨0x38, tag, payload⟩ .done .none t.link
        ∧ (∀ z : Fin 4, (t.zone z).latch = (s.zone z).latch ∧ (t.zone z).temperature = (s.zone z).temperature
            ∧ (t.zone z).maxDuty = (s.zone z).maxDuty ∧ (t.zone z).periodTime = (s.zone z).periodTime
            ∧ (t.zone z).applied =
                min (if (t.zone z).latch = .none ∧ (t.zone z).mode ≠ .off then (t.zone z).demand else 0) (t.zone z).ceiling)
        ∧ (∀ z : Fin 4, (∀ e ∈ es, e.1 ≠ z) →
            (t.zone z).mode = (s.zone z).mode ∧ (t.zone z).boostLeft = (s.zone z).boostLeft ∧ (t.zone z).demand = (s.zone z).demand)
        ∧ ∀ e ∈ es, (t.zone e.1).demand = Spec.demandOf (t.zone e.1)
          ∧ match e.2 with
            | .boost sp =>
              ((∃ degrees, (s.zone e.1).temperature = some degrees ∧ (sp : Int) ≤ degrees) →
                (t.zone e.1).mode = .auto sp ∧ (t.zone e.1).boostLeft = none)
              ∧ ((∀ degrees, (s.zone e.1).temperature = some degrees → degrees < (sp : Int)) →
                (t.zone e.1).mode = .boost sp ∧ (t.zone e.1).boostLeft = some 600000)
            | m => (t.zone e.1).mode = m ∧ (t.zone e.1).boostLeft = none

/-- A plausible reading is recorded as the nearest half-degree step, latches OVERTEMP at 60 °C and above where no latch is set,
and ends a boost at or above its setpoint; an implausible one leaves the temperature INVALID and the latch SENSOR. A latch that
is set makes demand and applied duty 0 (R137, R140, R144, R145). A period start works out the demand and begins the period; the
end of the on-time turns the output off for the rest of it; the expiry of a boost makes the mode AUTO at its setpoint (R139,
R140, R142). Each acts on its zone's record, and on the others' ceilings and applied duties at most. The model's choices in it:
readings come in hundredths of a degree and are judged unrounded (log 10), a boost also ends at 60 °C and above (log 37), the
end of the on-time moves the period's time (log 5), and an on-time end without a period and an expiry without a boost change
nothing (log 33). -/
def Obligations.ZoneEventsFollowTheirRules : Prop :=
  ∀ (s : State) (z : Fin 4) (reading : Int), s.atEase →
    (∃ t, exec (.temperatureReading z reading) s = .next t ∧ t = { s with zones := t.zones, link := t.link }
      ∧ s.link.carriesOn t.link
      ∧ (∀ y : Fin 4, y ≠ z → t.zone y = { s.zone y with ceiling := (t.zone y).ceiling, applied := (t.zone y).applied })
      ∧ (-4000 ≤ reading → reading ≤ 12000 →
          (∃ k, (t.zone z).temperature = some k ∧ 50 * k - 25 ≤ reading ∧ reading ≤ 50 * k + 25)
          ∧ (t.zone z).latch = (if 6000 ≤ reading ∧ (s.zone z).latch = .none then .overtemp else (s.zone z).latch)
          ∧ (t.zone z).mode = (match (s.zone z).mode with
              | .boost sp => if 50 * (sp : Int) ≤ reading then .auto sp else .boost sp
              | m => m))
      ∧ (reading < -4000 ∨ 12000 < reading →
          (t.zone z).temperature = none ∧ (t.zone z).latch = .sensor ∧ (t.zone z).mode = (s.zone z).mode)
      ∧ ((t.zone z).latch ≠ (s.zone z).latch → (t.zone z).demand = 0 ∧ (t.zone z).applied = 0))
    ∧ (∃ t, exec (.pwmPeriodStart z) s = .next t ∧ t = { s with zones := t.zones, link := t.link } ∧ s.link.carriesOn t.link
      ∧ (∀ y : Fin 4, y ≠ z → t.zone y = { s.zone y with ceiling := (t.zone y).ceiling, applied := (t.zone y).applied })
      ∧ t.zone z = { s.zone z with
          periodTime := some 0, demand := Spec.demandOf (s.zone z), ceiling := (t.zone z).ceiling, applied := (t.zone z).applied })
    ∧ (∀ left, (s.zone z).periodTime = some left → (s.zone z).applied < 100 →
      ∃ t, exec (.pwmOnTimeEnd z) s = .next t ∧ (t.zone z).outputOn = false ∧ s.link.carriesOn t.link
        ∧ t = { s with
            zones := s.zones.set z { s.zone z with periodTime := some (max left (10 * (s.zone z).applied)) }, link := t.link })
    ∧ ((s.zone z).periodTime = none ∨ 100 ≤ (s.zone z).applied →
      ∃ l, exec (.pwmOnTimeEnd z) s = .next { s with link := l } ∧ s.link.carriesOn l)
    ∧ ((∀ sp, (s.zone z).mode ≠ .boost sp) → ∃ l, exec (.boostExpiry z) s = .next { s with link := l } ∧ s.link.carriesOn l)
    ∧ ∀ sp, (s.zone z).mode = .boost sp →
      ∃ t, exec (.boostExpiry z) s = .next t ∧ t = { s with zones := t.zones, link := t.link } ∧ s.link.carriesOn t.link
        ∧ (∀ y : Fin 4, y ≠ z → t.zone y = { s.zone y with ceiling := (t.zone y).ceiling, applied := (t.zone y).applied })
        ∧ t.zone z = { s.zone z with
            mode := .auto sp, boostLeft := none, demand := Spec.demandOf { s.zone z with mode := .auto sp }
            ceiling := (t.zone z).ceiling, applied := (t.zone z).applied }

/-! ### Crash pull-forward -/

/-- What a brace that begins leaves (R57, R133, R150, R152 to R154): the record with its source, deadline and snapshot, the brace
regime with every ceiling at 0, massage halted, the bolsters set, each HELD inside its new band and FILLING outside it (R154 step 7;
FAILED where it joins the queue of a TRIPPED pump, R167), the store window closed, the running moves of other owners
preempted, and what has nothing to do with a brace as it was. -/
def Spec.braceBegun (src : BraceSource) (s t : State) : Prop :=
  (t.brace.state = .bracing ∨ t.brace.state = .braced) ∧ t.brace.source = some src ∧ t.brace.releasePending = false
    ∧ t.brace.holdPending = false ∧ (t.brace.state = .bracing → t.brace.deadlineLeft = some s.brace.deadline)
    ∧ (∃ n, t.brace.snapshot = some n
        ∧ (∀ a : Fin 8, n.positions[a] =
            if (s.axis a).cfg.braceTarget ≠ .none ∧ (s.axis a).referenced = true then some (s.axis a).position else none)
        ∧ n.cellTargets = #v[(s.cell 8).target, (s.cell 9).target, (s.cell 10).target, (s.cell 11).target]
        ∧ (s.massage.running = false → n.massage = none)
        ∧ ∀ p i, s.massage.running = true → s.massage.active = some p → s.massage.intensity = some i → n.massage = some (p, i))
    ∧ t.gov.regime = true
    ∧ (∀ z : Fin 4, (t.zone z).ceiling = 0 ∧ (t.zone z).applied = 0 ∧ (t.zone z).mode = (s.zone z).mode)
    ∧ t.massage.running = false ∧ t.massage.lastStop = (if s.massage.running = true then .brace else s.massage.lastStop)
    ∧ (t.cell 10).owner = .brace ∧ (t.cell 10).target = s.brace.bolsterPressure
    ∧ (t.cell 11).owner = .brace ∧ (t.cell 11).target = s.brace.bolsterPressure
    ∧ (s.cells.pump ≠ .tripped → ∀ c : Fin 12, c = 10 ∨ c = 11 → Spec.bolster t.brace c =
        if s.brace.bolsterPressure ≤ (s.cell c).pressure + 4 ∧ (s.cell c).pressure ≤ s.brace.bolsterPressure + 4 then .held
        else .filling)
    ∧ (s.cells.pump = .tripped → ∀ c : Fin 12, c = 10 ∨ c = 11 → (s.cell c).owner ≠ .brace → (s.cell c).latch = .none →
        (s.cell c).pressure + 4 < s.brace.bolsterPressure → Spec.bolster t.brace c = .failed)
    ∧ t.switches = { s.switches with window := none }
    ∧ (∀ (a : Fin 8) (m : Move) (x : Slot), (s.axis a).activity = .running → (s.axis a).move = some m → s.slotOf a = some x →
        x.owner = .link ∨ x.owner = .switch ∨ x.owner = .plan →
        t.axis a = Spec.braked .stopped { m with stopCause := some (.preempt .brace) } (s.axis a))
    ∧ (∀ a : Fin 8, (s.axis a).moving = false → (s.axis a).cfg.braceTarget = .none → t.axis a = s.axis a)
    ∧ t.plans = s.plans ∧ t.profiles = s.profiles ∧ t.settings = s.settings ∧ t.massage.patterns = s.massage.patterns

/-- BRACE, answered ACCEPTED, and an activation of the brace line begin a brace from IDLE, with their own source (R150, R154). An
activation found when the line is ACTIVE already changes nothing (log 33, the model's choice). -/
def Obligations.BraceBeginsFromIdle : Prop :=
  ∀ (s : State) (tag : Byte), s.unclaimed → s.gov.regime = false →
    (s.awaits →
      ∃ t, exec (.brace tag []) s = .next t ∧ t.link.slot = .replied ⟨0x40, tag, []⟩ .accepted .none ∧ Spec.braceBegun .command s t
        ∧ t.brace.lineActive = s.brace.lineActive)
    ∧ (s.atEase → s.brace.lineActive = false →
      ∃ t, exec .braceLineActivation s = .next t ∧ Spec.braceBegun .line s t ∧ t.brace.lineActive = true)
    ∧ (s.atEase → s.brace.lineActive = true →
      ∃ l, exec .braceLineActivation s = .next { s with link := l } ∧ s.link.carriesOn l)

/-- A brace source after a request from a source (R152). -/
def Spec.mergedSource (old : Option BraceSource) (src : BraceSource) : BraceSource :=
  match old, src with
  | none, _ => src
  | some .command, .command => .command
  | some .line, .line => .line
  | some _, _ => .both

/-- The reply to BRACE_RELEASE without the after-crash flag (R160). -/
def Spec.releaseReply (s : State) : ReplyStatus :=
  match s.brace.state with
  | .idle | .holding => .refused
  | .restoring => .done
  | .bracing => if s.brace.lineActive = true ∨ s.brace.holdPending = true then .refused else .accepted
  | .braced => if s.brace.lineActive = true then .refused else .accepted

/-- During a brace: BRACE in BRACING clears release pending, in BRACED restarts the hold timer and in HOLDING does no more than
note its source (R152, R158); BRACE_HOLD by the table of R162; BRACE_RELEASE without the flag by the table of R160, RESTORING
being left at once for IDLE where there is nothing to restore; and the line's becoming INACTIVE sets its level alone (R150). -/
def Spec.BraceCommandsFollowTheirTables : Prop :=
  ∀ (s : State) (tag : Byte), s.awaits →
    (s.brace.state = .bracing ∨ s.brace.state = .braced ∨ s.brace.state = .holding →
      ∃ l, exec (.brace tag []) s
          = .next { s with
              brace := { s.brace with
                source := some (Spec.mergedSource s.brace.source .command)
                releasePending := if s.brace.state = .bracing then false else s.brace.releasePending
                holdLeft := if s.brace.state = .braced then some (s.brace.holdTime * 1000) else s.brace.holdLeft }
              link := l }
        ∧ s.link.answered ⟨0x40, tag, []⟩ .done .none l)
    ∧ (s.brace.state = .idle ∨ s.brace.state = .holding →
      ∃ l, exec (.braceHold tag []) s = .next { s with link := l }
        ∧ s.link.answered ⟨0x41, tag, []⟩ (if s.brace.state = .idle then .refused else .done) .none l)
    ∧ (s.brace.state = .bracing →
      ∃ l, exec (.braceHold tag []) s
          = .next { s with brace := { s.brace with holdPending := true, releasePending := false }, link := l }
        ∧ s.link.answered ⟨0x41, tag, []⟩ .done .none l)
    ∧ (s.brace.state = .braced →
      ∃ l, exec (.braceHold tag []) s = .next { s with brace := { s.brace with state := .holding, holdLeft := none }, link := l }
        ∧ s.link.answered ⟨0x41, tag, []⟩ .done .none l)
    ∧ (s.brace.state = .restoring →
      ∃ t, exec (.braceHold tag []) s = .next t ∧ t.link.slot = .replied ⟨0x41, tag, []⟩ .accepted .none
        ∧ t.brace.holdPending = true ∧ t.brace.state ≠ .idle ∧ t.brace.state ≠ .restoring)
    ∧ (∃ t, exec (.braceRelease tag [0]) s = .next t ∧ t.link.slot = .replied ⟨0x42, tag, [0]⟩ (Spec.releaseReply s) .none
      ∧ (Spec.releaseReply s ≠ .accepted → t = { s with link := t.link })
      ∧ (Spec.releaseReply s = .accepted → s.brace.state = .bracing →
          t = { s with brace := { s.brace with releasePending := true }, link := t.link })
      ∧ (Spec.releaseReply s = .accepted → s.brace.state = .braced →
          (t.brace.state = .restoring ∨ t.brace.state = .idle) ∧ t.brace.holdLeft = none))
    ∧ ∃ l, exec .braceLineInactive s = .next { s with brace := { s.brace with lineActive := false }, link := l }
        ∧ s.link.carriesOn l

/-- The deadline that expires in BRACING makes the brace BRACED and late, and sends an owner stop to each brace axis that is
unreferenced and whose move is not done; what follows BRACED goes by hold pending, then release pending, and otherwise the hold
timer starts (R157). The hold timer that expires in BRACED restarts while the line is ACTIVE and otherwise begins the restore,
which ends at once where there is nothing to restore (R163). The end of a brace-ack pulse ends it (R168). Nothing is queued
here. That an expiry is taken wherever its timer runs, and changes nothing in another state or with the timer stopped, is the
model's choice (logs 5 and 33). -/
def Obligations.BraceTimersFollowTheirRules : Prop :=
  ∀ s : State, s.atEase →
    (s.brace.state ≠ .bracing ∨ s.brace.deadlineLeft = none →
      ∃ l, exec .deadlineExpiry s = .next { s with link := l } ∧ s.link.carriesOn l)
    ∧ (s.brace.state = .bracing → s.brace.deadlineLeft.isSome → s.claims.queue = [] →
      ∃ t, exec .deadlineExpiry s = .next t
        ∧ (s.brace.releasePending = false ∨ s.brace.holdPending = true →
          t = { s with
              axes := t.axes
              brace := { s.brace with
                late := true, deadlineLeft := none, state := if s.brace.holdPending = true then .holding else .braced
                holdLeft := if s.brace.holdPending = true then s.brace.holdLeft else some (s.brace.holdTime * 1000) }
              link := t.link }
          ∧ (∀ a : Fin 8, (s.axis a).referenced = true → t.axis a = s.axis a)
          ∧ ∀ x ∈ s.brace.axes, x.progress = .waiting ∨ x.progress = .moving → (s.axis x.axis).referenced = false →
              ∀ m y, (s.axis x.axis).activity = .running → (s.axis x.axis).move = some m → s.slotOf x.axis = some y →
                y.owner = .brace →
                t.axis x.axis = Spec.braked .stopped { m with stopCause := some .owner } (s.axis x.axis))
        ∧ (s.brace.releasePending = true → s.brace.holdPending = false →
          t.brace.state = .restoring ∨ t.brace.state = .idle))
    ∧ (s.brace.state ≠ .braced ∨ s.brace.holdLeft = none →
      ∃ l, exec .holdTimerExpiry s = .next { s with link := l } ∧ s.link.carriesOn l)
    ∧ (s.brace.state = .braced → s.brace.holdLeft.isSome → s.brace.lineActive = true →
      ∃ l, exec .holdTimerExpiry s
          = .next { s with brace := { s.brace with holdLeft := some (s.brace.holdTime * 1000) }, link := l }
        ∧ s.link.carriesOn l)
    ∧ (s.brace.state = .braced → s.brace.holdLeft.isSome → s.brace.lineActive = false →
      ∃ t, exec .holdTimerExpiry s = .next t ∧ (t.brace.state = .restoring ∨ t.brace.state = .idle) ∧ t.brace.holdLeft = none)
    ∧ ∃ l, exec .ackPulseEnd s = .next { s with brace := { s.brace with ackPulse := none }, link := l } ∧ s.link.carriesOn l

/-- BRACE_RELEASE with the after-crash flag is REFUSED without effect outside HOLDING. In HOLDING it is DONE: running brace
moves are braked with cause OWNER, every zone is OFF, cells 10 and 11 are released with target 0, the record returns to IDLE
with last end AFTER_CRASH and without its snapshot, and the regime is off; massage, plans, profiles and switches are as before
(R161). -/
def Spec.AfterCrashReleaseEndsTheBrace : Prop :=
  ∀ (s : State) (tag : Byte), s.awaits →
    (s.brace.state ≠ .holding →
      ∃ l, exec (.braceReleaseAfterCrash tag) s = .next { s with link := l }
        ∧ s.link.answered ⟨0x42, tag, [1]⟩ .refused .none l)
    ∧ (s.brace.state = .holding → s.claims.queue = [] → (∀ a : Fin 8, s.claims.held[a] = ⟨false, false, false⟩) →
      s.plans.current = none →
      ∃ t, exec (.braceReleaseAfterCrash tag) s = .next t ∧ t.link.slot = .replied ⟨0x42, tag, [1]⟩ .done .none
        ∧ t.brace = { s.brace with
            state := .idle, source := none, late := false, releasePending := false, holdPending := false, deadlineLeft := none
            holdLeft := none, axes := [], bolster10 := .none, bolster11 := .none, bolsterFail := false, snapshot := none
            lastEnd := some .afterCrash }
        ∧ t.gov.regime = false ∧ (∀ z : Fin 4, (t.zone z).mode = .off ∧ (t.zone z).applied = 0)
        ∧ (t.cell 10).owner = .none ∧ (t.cell 10).target = 0 ∧ (t.cell 11).owner = .none ∧ (t.cell 11).target = 0
        ∧ (∀ (a : Fin 8) (m : Move) (x : Slot), (s.axis a).activity = .running → (s.axis a).move = some m → s.slotOf a = some x →
            x.owner = .brace → t.axis a = Spec.braked .stopped { m with stopCause := some .owner } (s.axis a))
        ∧ t = { s with
            axes := t.axes, claims := { s.claims with owners := t.claims.owners }
            gov := { s.gov with pumpGrant := t.gov.pumpGrant, regime := false }, zones := t.zones, cells := t.cells, brace := t.brace
            link := t.link })

/-- During a brace BRACE, BRACE_HOLD and BRACE_RELEASE go by their tables, and the line's becoming INACTIVE sets its level alone
(R150, R152, R158, R160, R162, `Spec.BraceCommandsFollowTheirTables`). BRACE_RELEASE with the after-crash flag is REFUSED
outside HOLDING and ends the brace in it (R161, `Spec.AfterCrashReleaseEndsTheBrace`). -/
def Obligations.BraceCommandsDuringABrace : Prop := Spec.BraceCommandsFollowTheirTables ∧ Spec.AfterCrashReleaseEndsTheBrace

/-- The bolsters as the snapshot's targets leave them: owned by SUPPORT, or by NONE where the target is 0 (R165). -/
def Spec.bolstersReturned (n : Snapshot) (t : State) : Prop :=
  (t.cell 10).target = n.cellTargets[2] ∧ (t.cell 10).owner = (if n.cellTargets[2] = 0 then .none else .support)
    ∧ (t.cell 11).target = n.cellTargets[3] ∧ (t.cell 11).owner = (if n.cellTargets[3] = 0 then .none else .support)

/-- The brace record in IDLE after a brace that ended so (R152, R153). -/
def Spec.braceOver (e : BraceEnd) (b : Brace) : Brace :=
  { b with
    state := .idle, source := none, late := false, releasePending := false, holdPending := false, deadlineLeft := none
    holdLeft := none, axes := [], bolster10 := .none, bolster11 := .none, bolsterFail := false, snapshot := none, lastEnd := some e }

/-- The brace record as a re-brace from RESTORING leaves it, its one brace axis waiting for its brace target (R159). -/
def Spec.reBraced (src : BraceSource) (a : Fin 8) (position : Nat) (b : Brace) : Brace :=
  { b with
    state := .bracing, source := some (Spec.mergedSource b.source src), late := false, releasePending := false
    deadlineLeft := some b.deadline, axes := [⟨a, .target position, .waiting, .none⟩] }

/-- A brace with one brace axis that has settled, whose restore is at this progress. -/
abbrev Spec.restoringOne (s : State) (a : Fin 8) (progress : RestoreProgress) : Prop :=
  s.brace.state = .restoring ∧ ∃ goal r, s.brace.axes = [⟨a, goal, .done r, progress⟩]

/-- RESTORING and its ends, said of a brace with one brace axis, with nothing else queued or planned. BRACE, ACCEPTED, and an
activation of the line return the brace to BRACING: the restore move is braked with cause OWNER, the axis waits for its brace
target, its claim HELD, the deadline restarts, and snapshot, regime, bolsters and massage stay (R159). A restore begins with a
BRACE claim of the snapshot's position, set into the soft limits (R164). It is finished when the last restore move has settled:
the bolsters return to their snapshot targets, the regime is off, and massage starts again where the snapshot has it RUNNING
with a pattern that is READY (R165). A switch press ends it before it is taken: restore moves are braked with PREEMPT (SWITCH),
the bolsters return, massage stays off, and SET opens its window (R103, R166). -/
def Obligations.BraceRestoresTheSeat : Prop :=
  ∀ (s : State) (a : Fin 8), s.claims.queue = [] → s.plans.current = none →
    (∀ c : Fin 8, s.claims.held[c] = ⟨false, false, false⟩) →
    (∀ (tag : Byte) (m : Move) (x : Slot) (position : Nat), Spec.restoringOne s a .moving → s.owner a = .brace → s.slotOf a = some x →
      x.owner = .brace → (s.axis a).activity = .running → (s.axis a).move = some m → (s.axis a).latch = .none →
      (s.axis a).referenced = true → (s.axis a).cfg.braceTarget = .absolute position →
      (s.awaits →
        ∃ l, exec (.brace tag []) s
            = .next { s with
                axes := s.axes.set a (Spec.braked .stopped { m with stopCause := some .owner } (s.axis a))
                claims := { s.claims with held := s.claims.held.set a ⟨true, false, false⟩ }
                brace := Spec.reBraced .command a ((s.axis a).intoLimits position) s.brace, link := l }
          ∧ s.link.answered ⟨0x40, tag, []⟩ .accepted .none l)
      ∧ (s.atEase → s.brace.lineActive = false →
        ∃ l, exec .braceLineActivation s
            = .next { s with
                axes := s.axes.set a (Spec.braked .stopped { m with stopCause := some .owner } (s.axis a))
                claims := { s.claims with held := s.claims.held.set a ⟨true, false, false⟩ }
                brace := { Spec.reBraced .line a ((s.axis a).intoLimits position) s.brace with lineActive := true }, link := l }
          ∧ s.link.carriesOn l))
    ∧ (∀ goal r was n position, s.atEase → s.brace.state = .braced → s.brace.holdLeft.isSome → s.brace.lineActive = false →
      s.brace.axes = [⟨a, goal, .done r, was⟩] → s.brace.snapshot = some n → n.positions[a] = some position →
      (s.axis a).activity = .idle → (s.axis a).latch = .none → (s.axis a).referenced = true → s.owner a = .none →
      s.slotOf a = none → s.claims.slots[0] = none → s.power.standing = .invalid →
      (s.axis a).cfg.ratedUnits + s.motorUnits + (if s.braceCellQueued = true then s.gov.pumpGrant else 0) ≤ s.gov.limit →
      (s.axis a).cfg.tolerance < Spec.apart (s.axis a).position ((s.axis a).intoLimits position) →
      ∃ t, exec .holdTimerExpiry s = .next t
        ∧ t.brace = { s.brace with
            state := .restoring, holdLeft := none, deadlineLeft := none, axes := [⟨a, goal, .done r, .moving⟩] }
        ∧ t.axes = s.axes.set a
            (Spec.driving (if (s.axis a).position < (s.axis a).intoLimits position then .plus else .minus)
              (Spec.moveOf (s.axis a) .targeted (some ((s.axis a).intoLimits position)) none none) (s.axis a))
        ∧ t.claims = { s.claims with
            owners := s.claims.owners.set a .brace
            slots := s.claims.slots.set 0 (some ⟨a, .brace, .targeted, (s.axis a).cfg.ratedUnits⟩) }
        ∧ t.gov.regime = s.gov.regime ∧ t.massage = s.massage)
    ∧ (∀ (m : Move) (x : Slot) (n : Snapshot) (target : Nat), s.atEase → Spec.restoringOne s a .moving → s.brace.snapshot = some n →
      (s.axis a).activity = .stopping → (s.axis a).latch = .none → (s.axis a).move = some m → m.stopCause = none →
      m.ended = some .coastLead → m.leg = none → m.target = some target → Spec.apart (s.axis a).position target ≤ m.tolerance →
      s.slotOf a = some x → x.owner = .brace → s.owner a = .brace →
      ∃ t resumed, exec (.settle a) s = .next t ∧ t.brace = Spec.braceOver (.restored resumed) s.brace
        ∧ t.axes = s.axes.set a (Spec.rested .idle .reached { s.axis a with stallCount := 0 }) ∧ t.owner a = .none
        ∧ t.gov.regime = false ∧ Spec.bolstersReturned n t
        ∧ (n.massage = none → resumed = false ∧ t.massage = s.massage)
        ∧ ∀ q intensity, n.massage = some (q, intensity) →
          ((s.pattern q).state ≠ .ready → resumed = false ∧ t.massage = s.massage)
          ∧ ((s.pattern q).state = .ready → resumed = true ∧ t.massage = { s.massage with
              running := true, active := some q, staged := none, intensity := some intensity, counter := 0
              stepLeft := some ((s.pattern q).stepTime * 100), sessionLeft := some (s.massage.sessionLength * 60000) }))
    ∧ ∀ n, s.atEase → s.brace.state = .restoring → s.brace.snapshot = some n → s.contact .set = ⟨false, false⟩ →
      ∃ t, exec .setPress s = .next t ∧ t.brace = Spec.braceOver .switch s.brace ∧ t.gov.regime = false ∧ Spec.bolstersReturned n t
        ∧ t.massage = s.massage
        ∧ t.switches = { Spec.withContact .set ⟨true, false⟩ s.switches with window := some 5000 }
        ∧ (∀ (c : Fin 8) (m : Move), (s.axis c).activity = .running → s.movingFor c .brace = true → (s.axis c).move = some m →
            t.axis c = Spec.braked .stopped { m with stopCause := some (.preempt .switch) } (s.axis c))
        ∧ (∀ c : Fin 8, s.movingFor c .brace = false → t.axis c = s.axis c)
        ∧ ∀ c : Fin 8, t.owner c = if s.owner c = .brace then .none else s.owner c

/-! ### Seat link -/

/-- What a failed frame leaves: the receiver HUNTING, and a FRAME_ERROR reply owed, or the count of the one owed raised; the silence
timer, HOST_SILENT and the command slot are as before (R172). The owed replies are named while a frame is being sent. -/
def Spec.frameFailed (before after : Link) : Prop :=
  after = { before with
      receiver := .hunting, owed := after.owed, sending := after.sending, pendingNotices := after.pendingNotices }
    ∧ (before.sending.isSome → (∀ n, Owed.frameError n ∉ before.owed) → after.owed = before.owed ++ [.frameError 1])
    ∧ (before.sending.isSome → ∀ front back n, before.owed = front ++ .frameError n :: back → (∀ k, Owed.frameError k ∉ front) →
        (∀ k, Owed.frameError k ∉ back) → after.owed = front ++ .frameError (min (n + 1) 255) :: back)

/-- The receiver's events touch only the link. A frame that fails its judgement and a byte error inside a frame make a failed
frame (R171, R172); a gap abandons the frame; a break empties the command slot and the replies owed, restarts the silence timer
and lets the frame being sent go on (R179; that the end of such a reply no longer empties the slot is log 25, DEDUCED), and its
end lets the receiver take bytes again; while a break lasts or bytes are discarded after a wake nothing is taken, and the end of
the discarding leaves the receiver HUNTING (R191). -/
def Obligations.ReceiverEventsTouchOnlyTheLink : Prop :=
  ∀ (s : State) (frame : List Byte), s.atEase →
    (s.link.discarding = false → s.link.lineLow = false →
      (parseFrame frame = none → ∃ l, exec (.frameReceived frame) s = .next { s with link := l } ∧ Spec.frameFailed s.link l)
      ∧ (∀ bytes, s.link.receiver = .inFrame bytes →
          ∃ l, exec .byteError s = .next { s with link := l } ∧ Spec.frameFailed s.link l)
      ∧ (s.link.receiver = .hunting → ∃ l, exec .byteError s = .next { s with link := l } ∧ s.link.carriesOn l)
      ∧ (∃ l, exec .frameGap s = .next { s with link := l } ∧ ({ s.link with receiver := .hunting } : Link).carriesOn l)
      ∧ (s.link.restartDue = false →
          ∃ l, exec .lineBreak s = .next { s with link := l }
            ∧ l = { s.link with
                receiver := .hunting, lineLow := true, slot := .empty, owed := [], sending := l.sending
                pendingNotices := l.pendingNotices
                silenceLeft := if s.link.silenceTime = 0 then none else some (s.link.silenceTime * 1000) }
            ∧ (∀ k c, s.link.sending = some (.notice k c) → l.sending = s.link.sending)
            ∧ ∀ code tag status data ofSlot, s.link.sending = some (.reply code tag status data ofSlot) →
                l.sending = some (.reply code tag status data false)))
    ∧ (s.link.discarding = true ∨ s.link.lineLow = true → ∀ e ∈ [Instr.frameReceived frame, .byteError, .frameGap, .lineBreak],
        ∃ l, exec e s = .next { s with link := l } ∧ s.link.carriesOn l)
    ∧ (∃ l, exec .breakEnd s = .next { s with link := l } ∧ ({ s.link with lineLow := false } : Link).carriesOn l)
    ∧ ∃ l, exec .wakeDiscardEnd s = .next { s with link := l }
        ∧ ({ s.link with
            discarding := false, receiver := if s.link.discarding = true then .hunting else s.link.receiver } : Link).carriesOn l

/-- The states that a run of received bytes leads through, to the last. -/
def Spec.afterBytes : List Byte → State → Option State
  | [], s => some s
  | b :: bs, s =>
    match exec (.byteReceived b) s with
    | .next t => Spec.afterBytes bs t
    | .fault _ | .refused _ => none

/-- The bytes of a command's frame, received one after another by a HUNTING receiver, place the command in the EMPTY slot,
IN_HAND, as its complete frame does; only the link changes (R171, R172, R173, R180, R185; that FRAME_RECEIVED brings the whole
frame at once, beside the bytes, is log 3, DEDUCED). -/
def Obligations.BytesMakeACommand : Prop :=
  ∀ (s : State) (code tag : Byte) (payload : List Byte), s.awaits → s.link.receiver = .hunting → payload.length ≤ 61 →
    (∃ l, Spec.afterBytes (frameBytes 1 code tag payload) s = some { s with link := l } ∧ l.slot = .inHand ⟨code, tag, payload⟩
      ∧ l.receiver = .hunting ∧ l.hostSilent = false)
    ∧ ∃ l, exec (.frameReceived (frameBytes 1 code tag payload).tail) s = .next { s with link := l }
      ∧ l.slot = .inHand ⟨code, tag, payload⟩ ∧ l.receiver = .hunting ∧ l.hostSilent = false

/-- The frame of every well-formed host command is read back as that command: code, tag and payload (R172, R185). -/
def Obligations.CommandFramesAreReadBack : Prop :=
  ∀ (c : Instr) (code : Byte), c.wf = true → c.code = some code →
    parseFrame (frameBytes 1 code c.tag c.payload).tail = some ⟨code, c.tag, c.payload⟩

/-- The transmitter sends one frame at a time. When a frame ends it chooses the head of the replies owed, if it is ready,
otherwise the first pending kind in the order READY, BRACE, FAULT, SUPPLY, PLAN, AXIS, PROFILE, MASSAGE, HEAT, SWITCH, otherwise
nothing; after any command nothing ready is left unsent while nothing is being sent; a frame once begun goes on, whatever
becomes ready or is posted; and in SLEEP nothing is sent (R177). A command's reply carries the data it was answered with, but that
the content of a STATUS reply longer than the 59 bytes of one frame, a run, is that of the moment its first frame begins (R178; that
the length is judged by what was taken is log 40, the model's choice). The end of the frame of the command's own reply empties the
slot (R173). That nothing ready is left unsent at the end of a step is log 6 (DEDUCED), and that a frame being sent is cut off
at the entry to SLEEP is log 23 (the model's choice). -/
def Obligations.TransmitterChoosesInOrder : Prop :=
  (∀ (s : State) (out : Outgoing), s.agenda = [] → s.live = true → s.power.state ≠ .shuttingDown → s.link.sending = some out →
    s.link.restartDue = false →
    ∃ l, exec .frameSent s = .next { s with link := l }
      ∧ l = { s.link with slot := l.slot, owed := l.owed, sending := l.sending, pendingNotices := l.pendingNotices }
      ∧ l.slot = (if out.ofSlot = true then .empty else s.link.slot)
      ∧ (∀ n rest, s.link.owed = .frameError n :: rest →
          l.sending = some (.reply 0 0 .frameError (.bytes [BitVec.ofNat 8 n]) false) ∧ l.owed = rest
            ∧ l.pendingNotices = s.link.pendingNotices)
      ∧ (∀ code tag n rest, s.link.owed = .overrun code tag n :: rest →
          l.sending = some (.reply code tag .overrun (.bytes [BitVec.ofNat 8 n]) false) ∧ l.owed = rest
            ∧ l.pendingNotices = s.link.pendingNotices)
      ∧ (∀ c status data rest, s.link.owed = .command :: rest → l.slot = .replied c status data →
          (∃ sent, l.sending = some (.reply c.code c.tag status sent true)
              ∧ ((∀ taken, data = .content taken → c.code = 0x02 → (Config.contentBytes taken).length ≤ 59) → sent = data)
              ∧ ∀ taken sel, data = .content taken → c.code = 0x02 → 59 < (Config.contentBytes taken).length →
                  readSelector c.payload = some sel → sent = .content (s.statusContent sel))
            ∧ l.owed = rest ∧ l.pendingNotices = s.link.pendingNotices)
      ∧ (s.link.owed = [] ∨ (∃ rest, s.link.owed = .command :: rest) ∧ (∀ c status data, l.slot ≠ .replied c status data) →
          l.owed = s.link.owed
          ∧ (∀ k : NoticeKind, s.link.pendingNotices[k.index] = true →
              (∀ j : NoticeKind, j.index < k.index → s.link.pendingNotices[j.index] = false) →
              l.sending = some (.notice k (s.noticeContent k)) ∧ l.pendingNotices = s.link.pendingNotices.set k.index false)
          ∧ ((∀ k : NoticeKind, s.link.pendingNotices[k.index] = false) →
              l.sending = none ∧ l.pendingNotices = s.link.pendingNotices)))
    ∧ (∀ (c : Instr) (s t : State), exec c s = .next t → t.live = true → t.link.sending = none →
        t.readyReply = none ∧ ∀ k : NoticeKind, t.link.pendingNotices[k.index] = false)
    ∧ (∀ (c : Instr) (s t : State), s.agenda = [] → Spec.resetsOrEndsFrame c = false → s.link.sending.isSome → exec c s = .next t →
        t.power.state ≠ .sleep → t.link.sending = s.link.sending)
    ∧ ∀ (c : Instr) (s t : State), exec c s = .next t → (s.power.state = .sleep → s.link.sending = none) → t.power.state = .sleep →
        t.link.sending = none

/-- The silence timer's expiry raises HOST_SILENT, stops the timer and sets every zone OFF; it halts massage with cause SILENCE,
or in a brace takes massage out of the snapshot instead. Axes, claims and plans go on. Every expiry posts the FAULT notice, also
one that finds HOST_SILENT raised (R147, R153, R180; pending here while a frame is being sent). That a stopped timer does not
expire is the model's choice (logs 5 and 33). -/
def Obligations.SilenceExpiryQuietsTheSeat : Prop :=
  ∀ s : State, s.atEase →
    (s.link.silenceLeft = none → ∃ l, exec .silenceTimerExpiry s = .next { s with link := l } ∧ s.link.carriesOn l)
    ∧ (s.link.silenceLeft.isSome → s.brace.state ≠ .idle →
      ∃ t, exec .silenceTimerExpiry s = .next t ∧ ({ s.link with hostSilent := true, silenceLeft := none } : Link).carriesOn t.link
        ∧ (∀ z : Fin 4, (t.zone z).mode = .off ∧ (t.zone z).applied = 0)
        ∧ t = { s with
            zones := t.zones, link := t.link
            brace := { s.brace with snapshot := s.brace.snapshot.map fun n => { n with massage := none } } })
    ∧ (s.link.silenceLeft.isSome → s.link.sending.isSome →
      ∃ t, exec .silenceTimerExpiry s = .next t ∧ t.link.pendingNotices[NoticeKind.fault.index] = true)
    ∧ (s.link.silenceLeft.isSome → s.unclaimed →
      ∃ t, exec .silenceTimerExpiry s = .next t ∧ ({ s.link with hostSilent := true, silenceLeft := none } : Link).carriesOn t.link
        ∧ (∀ z : Fin 4, (t.zone z).mode = .off ∧ (t.zone z).applied = 0)
        ∧ (s.massage.running = false → t.massage = s.massage ∧ t.cells = s.cells)
        ∧ (s.massage.running = true → t.massage.running = false ∧ t.massage.lastStop = .silence
            ∧ ∀ j : Fin 8, (t.cell (massageCell j)).owner = .none ∧ (t.cell (massageCell j)).target = 0)
        ∧ t = { s with
            massage := t.massage, cells := t.cells, gov := { s.gov with pumpGrant := t.gov.pumpGrant }, zones := t.zones
            link := t.link })

/-! ### Power -/

/-- What a reset leaves: every block at its values after reset, in STARTING; the surroundings' levels, pressures and
temperatures and the commands waiting as they are (log 24, the model's choice); the retained areas kept, but for the one that
was being written, which is torn; the write-pending set empty (R187, R189). The valves at VENT while the pin is low and the cause of
the last entry to AWAKE are the model's choices (logs 50, 51). -/
def Spec.afterReset (cause : ResetCause) (held : Bool) (s t : State) : Prop :=
  t = { State.reset with
      store := { State.reset.store with profileAreas := t.store.profileAreas, parkingArea := t.store.parkingArea }
      switches := { State.reset.switches with contacts := t.switches.contacts }
      cells := { State.reset.cells with cells := t.cells.cells }
      zones := t.zones
      link := { State.reset.link with lineLow := s.link.lineLow }
      power := { State.reset.power with resetCause := cause, awakeCause := .reset cause, held := held }
      sense := s.sense
      pending := s.pending }
    ∧ (∀ c : Contact, t.contact c = ⟨(s.contact c).pressed, false⟩)
    ∧ (∀ c : Fin 12, t.cell c = { State.reset.cell c with pressure := (s.cell c).pressure })
    ∧ (∀ z : Fin 4, t.zone z = { State.reset.zone z with temperature := (s.zone z).temperature })
    ∧ (∀ p : Fin 6, t.store.profileAreas[p] = match s.store.job with
        | some (.profile q _) => if q = p then .torn else s.store.profileAreas[p]
        | _ => s.store.profileAreas[p])
    ∧ t.store.parkingArea = match s.store.job with
        | some (.parking _) => .torn
        | _ => s.store.parkingArea

/-- Power-on and the two edges of the RESET pin reset the part; RESTART is answered DONE and resets it when its reply has been
sent, or at once where a break discards the reply before its frame has begun (R179, R189). That both edges of the pin reset,
that power-on keeps the pin's level, and what a reset keeps of the surroundings are log 24's (DEDUCED, DESIGN CHOICE); the valve
records while the pin is low, and the cause of the last entry to AWAKE before the next one, are the model's choices (logs 50, 51). -/
def Obligations.ResetsReturnEveryBlock : Prop :=
  ∀ (s : State) (tag : Byte),
    (∃ t, exec .powerOn s = .next t ∧ Spec.afterReset .powerOn s.power.held s t)
    ∧ (∃ t, exec (.resetPin .low) s = .next t ∧ Spec.afterReset .resetPin true s t)
    ∧ (∃ t, exec (.resetPin .released) s = .next t ∧ Spec.afterReset .resetPin false s t)
    ∧ (s.awaits →
      ∃ l, exec (.restart tag []) s = .next { s with link := l }
        ∧ ({ s.link with restartDue := true } : Link).answered ⟨0x51, tag, []⟩ .done .none l)
    ∧ (s.live = true → s.link.restartDue = true → ∀ data ofSlot, s.link.sending = some (.reply 0x51 tag .done data ofSlot) →
      ∃ t, exec .frameSent s = .next t ∧ Spec.afterReset .restart s.power.held s t)
    ∧ (s.live = true → s.link.discarding = false → s.link.lineLow = false → s.link.restartDue = true →
      (∀ tag data ofSlot, s.link.sending ≠ some (.reply 0x51 tag .done data ofSlot)) →
      ∃ t, exec .lineBreak s = .next t ∧ Spec.afterReset .restart false { s with link := { s.link with lineLow := true } } t)

/-- STARTING ends in AWAKE, with axes, profiles and parking standing as the retained records give them, held contacts inert and
the READY notice posted (R24, R84, R102, R186, R188, R189, R192). Link activity in SLEEP is a wake source, and the wake returns
the part to AWAKE, keeping everything but the pump's run time, the zones' periods and ceilings and the silence timer (R191; the
first PWM period of a wake is R142's). That the records are filled in one act at the end of STARTING, over what was counted in
it, is log 32, and that these events find nothing elsewhere is log 33 (the model's choices). -/
def Obligations.EntriesToAwake : Prop :=
  ∀ s : State, s.agenda = [] →
    (s.power.held = false → s.power.state = .starting → s.brace.lineActive = false →
      ∃ t, exec .startingEnd s = .next t
        ∧ t = { s with axes := t.axes, profiles := t.profiles, switches := t.switches, zones := t.zones, power := t.power, link := t.link }
        ∧ t.power.state = .awake ∧ t.power.awakeCause = .reset s.power.resetCause
        ∧ (∀ r, s.store.parkingArea = .good r → r.valid = true → t.power.standing = .valid ∧ ∀ a : Fin 8,
            t.axis a = { s.axis a with
              referenced := r.axes[a].referenced, position := r.axes[a].position, travel := r.axes[a].travel })
        ∧ ((∀ r, s.store.parkingArea = .good r → r.valid = false) → t.power.standing = .invalid ∧ ∀ a : Fin 8,
            t.axis a = { s.axis a with referenced := false, position := 0, travel := none })
        ∧ (∀ p : Fin 6, t.profile p = match s.store.profileAreas[p] with
            | .blank => ⟨.empty, .empty, true⟩
            | .good c => if c = .empty then ⟨.empty, .empty, true⟩ else ⟨.valid, c, true⟩
            | .otherFormat | .torn => ⟨.corrupt, .empty, false⟩)
        ∧ (∀ c : Contact, t.contact c = ⟨(s.contact c).pressed, (s.contact c).pressed⟩)
        ∧ (s.link.sending = none → s.link.owed = [] → ∃ content, t.link.sending = some (.notice .ready content)))
    ∧ (s.power.held = true ∨ s.power.state = .awake ∨ s.power.state = .sleep →
      ∃ l, exec .startingEnd s = .next { s with link := l } ∧ s.link.carriesOn l)
    ∧ (s.power.held = false → s.power.state = .sleep →
      exec .linkActivity s = .next { s with power := { s.power with wakeSource := some (s.power.wakeSource.getD .link) } })
    ∧ (s.power.held = false → s.power.state = .sleep → s.switches.waking = [] → s.power.activationHeld = false →
      ∀ w, s.power.wakeSource = some w →
        ∃ t, exec .wake s = .next t
          ∧ t = { s with
              power := { s.power with state := .awake, awakeCause := .woken w, wakeSource := none }
              cells := { s.cells with runTime := 0 }, zones := t.zones, link := t.link }
          ∧ (∀ z : Fin 4, t.zone z = { s.zone z with
              periodTime := some 0, ceiling := (t.zone z).ceiling, applied := (t.zone z).applied })
          ∧ t.link.discarding = (w == .link)
          ∧ t.link.silenceLeft = if s.link.silenceTime = 0 then none else some (s.link.silenceTime * 1000))
    ∧ (s.power.held = false → s.power.state = .awake →
      (∃ l, exec .linkActivity s = .next { s with link := l } ∧ s.link.carriesOn l)
      ∧ ∃ l, exec .wake s = .next { s with link := l } ∧ s.link.carriesOn l)

/-- SHUTDOWN is REFUSED during a brace, and otherwise ACCEPTED: the part is SHUTTING_DOWN with the zones OFF, massage halted,
the fill queue empty, the pump without a request and the store window closed; with every axis at rest and no write to come, the
parking record is being written, valid, with every axis as it stands. SHUTDOWN again is DONE. The end of that write, with no
reply owed or being sent, is followed by SLEEP, with every valve at HOLD and every heater off (R134, R148, R190). That SLEEP is
entered in that same step, and a notice being sent is cut off there, are the model's choices (logs 6 and 23). -/
def Obligations.ShutdownLeadsToSleep : Prop :=
  ∀ (s : State) (tag : Byte),
    (s.awaits → s.brace.state ≠ .idle →
      ∃ l, exec (.shutdown tag []) s = .next { s with link := l } ∧ s.link.answered ⟨0x50, tag, []⟩ .refused .none l)
    ∧ (s.awaits → s.unclaimed → (∀ a : Fin 8, (s.axis a).moving = false) → s.store.job = none → s.store.pendingParking = false →
      (∀ p : Fin 6, s.store.pendingProfiles[p] = false) →
      ∃ t, exec (.shutdown tag []) s = .next t ∧ t.link.slot = .replied ⟨0x50, tag, []⟩ .accepted .none
        ∧ t.power.state = .shuttingDown ∧ t.power.phase = .writing ∧ t.power.standing = .valid ∧ t.axes = s.axes
        ∧ (∃ r, t.store.job = some (.parking r) ∧ r.valid = true
            ∧ ∀ a : Fin 8, r.axes[a] = ⟨(s.axis a).referenced, (s.axis a).position, (s.axis a).travel⟩)
        ∧ (∀ z : Fin 4, (t.zone z).mode = .off ∧ (t.zone z).applied = 0)
        ∧ t.massage.running = false ∧ t.massage.lastStop = (if s.massage.running = true then .shutdown else s.massage.lastStop)
        ∧ t.cells.queue = [] ∧ t.cells.pump ≠ .running ∧ t.cells.pump ≠ .waiting ∧ t.cells.pump ≠ .paused
        ∧ t.switches.window = none ∧ t.plans = s.plans ∧ t.profiles = s.profiles ∧ t.settings = s.settings)
    ∧ (s.agenda = [] → s.power.held = false → s.power.state = .shuttingDown → s.link.discarding = false → s.link.lineLow = false →
      s.link.slot = .empty →
      ∃ t, exec (.shutdown tag []) s = .next t ∧ t.link.slot = .replied ⟨0x50, tag, []⟩ .done .none
        ∧ t.power.state = .shuttingDown)
    ∧ (s.agenda = [] → s.power.held = false → s.power.state = .shuttingDown → s.power.phase = .writing → s.link.owed = [] →
      (∀ code g status data b, s.link.sending ≠ some (.reply code g status data b)) → s.store.pendingParking = false →
      (∀ p : Fin 6, s.store.pendingProfiles[p] = false) → ∀ r, s.store.job = some (.parking r) → r.valid = true →
      ∃ t, exec .retainedWriteEnd s = .next t ∧ t.power.state = .sleep ∧ t.store.parkingArea = .good r ∧ t.store.job = none
        ∧ (∀ c : Fin 12, (t.cell c).valve = .hold) ∧ (∀ z : Fin 4, (t.zone z).ceiling = 0 ∧ (t.zone z).applied = 0)
        ∧ t.cells.pump ≠ .running ∧ t.link.sending = none ∧ t.link.slot = s.link.slot ∧ t.axes = s.axes ∧ t.claims = s.claims
        ∧ t.plans = s.plans ∧ t.profiles = s.profiles ∧ t.settings = s.settings)

/-! ### Shutting down -/

/-- The part is SHUTTING_DOWN, between two steps and not held in reset, its receiver taking frames and its command slot EMPTY. -/
abbrev Spec.shuttingDown (s : State) : Prop :=
  s.agenda = [] ∧ s.power.held = false ∧ s.power.state = .shuttingDown ∧ s.link.discarding = false ∧ s.link.lineLow = false
    ∧ s.link.slot = .empty

/-- A command is answered with a status alone in SHUTTING_DOWN, and nothing changes but the link and what the shutdown itself
does next with the retained records (R190). -/
def Spec.onlyAnswered (i : Instr) (c : Command) (status : ReplyStatus) (s : State) : Prop :=
  ∃ t, exec i s = .next t ∧ t.link.slot = .replied c status .none ∧ t.power.state = .shuttingDown
    ∧ t = { s with store := t.store, power := t.power, link := t.link }

/-- In SHUTTING_DOWN, with no brace, MOVE, JOG, REFERENCE, PLAN_RUN, RECALL, PROFILE_STORE, PROFILE_WRITE, PROFILE_ERASE,
CELL_SET, MASSAGE_START and HEAT_SET with values in range are REFUSED without effect (R18, R33, R64, R85, R88, R89, R92, R125,
R129, R138), while VEHICLE, PLAN_CANCEL, HALT of an axis nobody owns and MASSAGE_STOP of an engine that is OFF are taken and
DONE (R40, R78, R79, R133). A press is ignored: its contact is PRESSED and inert (R103, R113). A BRACE command, ACCEPTED, and an
activation of the brace line cancel the shutdown: the power state is AWAKE again and the brace has begun (R150, R169, R190). -/
def Obligations.ShuttingDownGatesRequests : Prop :=
  ∀ (s : State) (tag : Byte) (payload : List Byte), Spec.shuttingDown s → s.brace.state = .idle →
    ((readMove payload).isSome → Spec.onlyAnswered (.move tag payload) ⟨0x10, tag, payload⟩ .refused s)
    ∧ ((readJog payload).isSome → Spec.onlyAnswered (.jog tag payload) ⟨0x11, tag, payload⟩ .refused s)
    ∧ ((readReference payload).isSome → Spec.onlyAnswered (.reference tag payload) ⟨0x13, tag, payload⟩ .refused s)
    ∧ ((readPlanRun payload).isSome → Spec.onlyAnswered (.planRun tag payload) ⟨0x21, tag, payload⟩ .refused s)
    ∧ ((readOneSlot payload).isSome → Spec.onlyAnswered (.recall tag payload) ⟨0x28, tag, payload⟩ .refused s
        ∧ Spec.onlyAnswered (.profileErase tag payload) ⟨0x2C, tag, payload⟩ .refused s)
    ∧ ((readProfileStore payload).isSome → Spec.onlyAnswered (.profileStore tag payload) ⟨0x29, tag, payload⟩ .refused s)
    ∧ ((readProfileWrite payload).isSome → Spec.onlyAnswered (.profileWrite tag payload) ⟨0x2A, tag, payload⟩ .refused s)
    ∧ ((readCellSet payload).isSome → Spec.onlyAnswered (.cellSet tag payload) ⟨0x30, tag, payload⟩ .refused s)
    ∧ ((readMassageStart payload).isSome → Spec.onlyAnswered (.massageStart tag payload) ⟨0x33, tag, payload⟩ .refused s)
    ∧ ((readHeatSet payload).isSome → Spec.onlyAnswered (.heatSet tag payload) ⟨0x38, tag, payload⟩ .refused s)
    ∧ (∀ b : Byte, b.toNat ≤ 1 →
        ∃ t, exec (.vehicle tag [b]) s = .next t ∧ t.link.slot = .replied ⟨0x06, tag, [b]⟩ .done .none
          ∧ t.plans.vehicle = (if b = 1 then .moving else .parked) ∧ t.power.state = .shuttingDown)
    ∧ (s.plans.next = none → Spec.onlyAnswered (.planCancel tag [1]) ⟨0x22, tag, [1]⟩ .done s)
    ∧ (∀ (b : Byte) (a : Fin 8), b.toNat = a.val → s.owner a = .none →
        Spec.onlyAnswered (.halt tag [b]) ⟨0x12, tag, [b]⟩ .done s)
    ∧ (s.massage.running = false → Spec.onlyAnswered (.massageStop tag []) ⟨0x34, tag, []⟩ .done s)
    ∧ (∀ c : Contact, s.contact c = ⟨false, false⟩ → (∀ a d, c = .axis a d → (s.contact (.axis a (oppositeDir d))).pressed = false) →
        s.power.phase = .waiting ∨ s.power.phase = .writing →
        ∃ t, exec (Spec.pressOf c) s = .next t ∧ t.power.state = .shuttingDown
          ∧ t = { s with
              switches := Spec.withContact c ⟨true, true⟩ s.switches, store := t.store, power := t.power, link := t.link })
    ∧ (s.claims.queue = [] → s.plans.current = none → s.gov.regime = false →
        (∃ t, exec (.brace tag []) s = .next t ∧ t.link.slot = .replied ⟨0x40, tag, []⟩ .accepted .none
          ∧ t.power.state = .awake ∧ (t.brace.state = .bracing ∨ t.brace.state = .braced) ∧ t.brace.source = some .command
          ∧ t.brace.snapshot.isSome ∧ t.gov.regime = true)
        ∧ (s.brace.lineActive = false →
          ∃ t, exec .braceLineActivation s = .next t ∧ t.power.state = .awake
            ∧ (t.brace.state = .bracing ∨ t.brace.state = .braced) ∧ t.brace.source = some .line ∧ t.brace.lineActive = true
            ∧ t.brace.snapshot.isSome ∧ t.gov.regime = true))

/-! ### Invariants -/

/-- NEXT is occupied only while CURRENT is (R62, R64, R65). -/
def Spec.nextBehindCurrent (s : State) : Prop := s.plans.current = none → s.plans.next = none

/-- Every step keeps the drive slots and the start queue sound, and NEXT occupied only behind CURRENT (R27, R28, R62). -/
def Obligations.StepKeepsSlotsAndPlansSound : Prop :=
  ∀ s t : State, s.slotsSound → Spec.nextBehindCurrent s → step s = .next t → t.slotsSound ∧ Spec.nextBehindCurrent t

/-- Every step keeps the budget: the sum of the units granted to the axes, the pump and the heater zones never exceeds the budget
limit, and the ceilings are those of R48 (R46 to R49). -/
def Obligations.StepKeepsTheBudget : Prop :=
  ∀ s t : State, s.budgetKept → step s = .next t → t.budgetKept

/-- Every step keeps every configuration item in its range, with the brace sum within the budget limit (R23, R45, R58, R132, R143,
R151, R180); and every step keeps positions within 0 to 8,191, pressures within 0 to 120 half-kPa and temperatures within −40 to
120 °C (R1, R3, R115, R137). -/
def Obligations.StepKeepsValuesInRange : Prop :=
  (∀ s t : State, s.settingsInRange → step s = .next t → t.settingsInRange)
    ∧ ∀ s t : State, s.measuresInRange → step s = .next t → t.measuresInRange

/-- The invariants hold right after reset. -/
def Obligations.ResetMeetsTheInvariants : Prop :=
  State.reset.slotsSound ∧ Spec.nextBehindCurrent State.reset ∧ State.reset.budgetKept ∧ State.reset.settingsInRange
    ∧ State.reset.measuresInRange
end

