-- ==== Sys2Proof/Laws/State.lean ====
section
/-! SUPPORT. One lemma per field for each update of the state: what it writes, and that it leaves every other field. -/

namespace Sys2Proof.Machine

/-! ### `State.post` -/

@[simp] theorem State.post_axes (k : NoticeKind) (s : State) : (State.post k s).axes = s.axes := rfl
@[simp] theorem State.post_claims (k : NoticeKind) (s : State) : (State.post k s).claims = s.claims := rfl
@[simp] theorem State.post_gov (k : NoticeKind) (s : State) : (State.post k s).gov = s.gov := rfl
@[simp] theorem State.post_plans (k : NoticeKind) (s : State) : (State.post k s).plans = s.plans := rfl
@[simp] theorem State.post_profiles (k : NoticeKind) (s : State) : (State.post k s).profiles = s.profiles := rfl
@[simp] theorem State.post_lastProfile (k : NoticeKind) (s : State) : (State.post k s).lastProfile = s.lastProfile := rfl
@[simp] theorem State.post_store (k : NoticeKind) (s : State) : (State.post k s).store = s.store := rfl
@[simp] theorem State.post_switches (k : NoticeKind) (s : State) : (State.post k s).switches = s.switches := rfl
@[simp] theorem State.post_cells (k : NoticeKind) (s : State) : (State.post k s).cells = s.cells := rfl
@[simp] theorem State.post_massage (k : NoticeKind) (s : State) : (State.post k s).massage = s.massage := rfl
@[simp] theorem State.post_zones (k : NoticeKind) (s : State) : (State.post k s).zones = s.zones := rfl
@[simp] theorem State.post_brace (k : NoticeKind) (s : State) : (State.post k s).brace = s.brace := rfl
@[simp] theorem State.post_link (k : NoticeKind) (s : State) : (State.post k s).link = { s.link with pendingNotices := s.link.pendingNotices.set k.index true } := rfl
@[simp] theorem State.post_power (k : NoticeKind) (s : State) : (State.post k s).power = s.power := rfl
@[simp] theorem State.post_sense (k : NoticeKind) (s : State) : (State.post k s).sense = s.sense := rfl
@[simp] theorem State.post_agenda (k : NoticeKind) (s : State) : (State.post k s).agenda = s.agenda := rfl
@[simp] theorem State.post_pending (k : NoticeKind) (s : State) : (State.post k s).pending = s.pending := rfl

/-! ### `State.call` -/

@[simp] theorem State.call_axes (ws : List Work) (s : State) : (State.call ws s).axes = s.axes := rfl
@[simp] theorem State.call_claims (ws : List Work) (s : State) : (State.call ws s).claims = s.claims := rfl
@[simp] theorem State.call_gov (ws : List Work) (s : State) : (State.call ws s).gov = s.gov := rfl
@[simp] theorem State.call_plans (ws : List Work) (s : State) : (State.call ws s).plans = s.plans := rfl
@[simp] theorem State.call_profiles (ws : List Work) (s : State) : (State.call ws s).profiles = s.profiles := rfl
@[simp] theorem State.call_lastProfile (ws : List Work) (s : State) : (State.call ws s).lastProfile = s.lastProfile := rfl
@[simp] theorem State.call_store (ws : List Work) (s : State) : (State.call ws s).store = s.store := rfl
@[simp] theorem State.call_switches (ws : List Work) (s : State) : (State.call ws s).switches = s.switches := rfl
@[simp] theorem State.call_cells (ws : List Work) (s : State) : (State.call ws s).cells = s.cells := rfl
@[simp] theorem State.call_massage (ws : List Work) (s : State) : (State.call ws s).massage = s.massage := rfl
@[simp] theorem State.call_zones (ws : List Work) (s : State) : (State.call ws s).zones = s.zones := rfl
@[simp] theorem State.call_brace (ws : List Work) (s : State) : (State.call ws s).brace = s.brace := rfl
@[simp] theorem State.call_link (ws : List Work) (s : State) : (State.call ws s).link = s.link := rfl
@[simp] theorem State.call_power (ws : List Work) (s : State) : (State.call ws s).power = s.power := rfl
@[simp] theorem State.call_sense (ws : List Work) (s : State) : (State.call ws s).sense = s.sense := rfl
@[simp] theorem State.call_agenda (ws : List Work) (s : State) : (State.call ws s).agenda = ws ++ s.agenda := rfl
@[simp] theorem State.call_pending (ws : List Work) (s : State) : (State.call ws s).pending = s.pending := rfl

/-! ### `State.setAxis` -/

@[simp] theorem State.setAxis_axes (a : Fin 8) (x : Axis) (s : State) : (State.setAxis a x s).axes = s.axes.set a x := rfl
@[simp] theorem State.setAxis_claims (a : Fin 8) (x : Axis) (s : State) : (State.setAxis a x s).claims = s.claims := rfl
@[simp] theorem State.setAxis_gov (a : Fin 8) (x : Axis) (s : State) : (State.setAxis a x s).gov = s.gov := rfl
@[simp] theorem State.setAxis_plans (a : Fin 8) (x : Axis) (s : State) : (State.setAxis a x s).plans = s.plans := rfl
@[simp] theorem State.setAxis_profiles (a : Fin 8) (x : Axis) (s : State) : (State.setAxis a x s).profiles = s.profiles := rfl
@[simp] theorem State.setAxis_lastProfile (a : Fin 8) (x : Axis) (s : State) : (State.setAxis a x s).lastProfile = s.lastProfile := rfl
@[simp] theorem State.setAxis_store (a : Fin 8) (x : Axis) (s : State) : (State.setAxis a x s).store = s.store := rfl
@[simp] theorem State.setAxis_switches (a : Fin 8) (x : Axis) (s : State) : (State.setAxis a x s).switches = s.switches := rfl
@[simp] theorem State.setAxis_cells (a : Fin 8) (x : Axis) (s : State) : (State.setAxis a x s).cells = s.cells := rfl
@[simp] theorem State.setAxis_massage (a : Fin 8) (x : Axis) (s : State) : (State.setAxis a x s).massage = s.massage := rfl
@[simp] theorem State.setAxis_zones (a : Fin 8) (x : Axis) (s : State) : (State.setAxis a x s).zones = s.zones := rfl
@[simp] theorem State.setAxis_brace (a : Fin 8) (x : Axis) (s : State) : (State.setAxis a x s).brace = s.brace := rfl
@[simp] theorem State.setAxis_link (a : Fin 8) (x : Axis) (s : State) : (State.setAxis a x s).link = s.link := rfl
@[simp] theorem State.setAxis_power (a : Fin 8) (x : Axis) (s : State) : (State.setAxis a x s).power = s.power := rfl
@[simp] theorem State.setAxis_sense (a : Fin 8) (x : Axis) (s : State) : (State.setAxis a x s).sense = s.sense := rfl
@[simp] theorem State.setAxis_agenda (a : Fin 8) (x : Axis) (s : State) : (State.setAxis a x s).agenda = s.agenda := rfl
@[simp] theorem State.setAxis_pending (a : Fin 8) (x : Axis) (s : State) : (State.setAxis a x s).pending = s.pending := rfl

/-! ### `State.setCell` -/

@[simp] theorem State.setCell_axes (c : Fin 12) (x : Cell) (s : State) : (State.setCell c x s).axes = s.axes := rfl
@[simp] theorem State.setCell_claims (c : Fin 12) (x : Cell) (s : State) : (State.setCell c x s).claims = s.claims := rfl
@[simp] theorem State.setCell_gov (c : Fin 12) (x : Cell) (s : State) : (State.setCell c x s).gov = s.gov := rfl
@[simp] theorem State.setCell_plans (c : Fin 12) (x : Cell) (s : State) : (State.setCell c x s).plans = s.plans := rfl
@[simp] theorem State.setCell_profiles (c : Fin 12) (x : Cell) (s : State) : (State.setCell c x s).profiles = s.profiles := rfl
@[simp] theorem State.setCell_lastProfile (c : Fin 12) (x : Cell) (s : State) : (State.setCell c x s).lastProfile = s.lastProfile := rfl
@[simp] theorem State.setCell_store (c : Fin 12) (x : Cell) (s : State) : (State.setCell c x s).store = s.store := rfl
@[simp] theorem State.setCell_switches (c : Fin 12) (x : Cell) (s : State) : (State.setCell c x s).switches = s.switches := rfl
@[simp] theorem State.setCell_cells (c : Fin 12) (x : Cell) (s : State) : (State.setCell c x s).cells = { s.cells with cells := s.cells.cells.set c x } := rfl
@[simp] theorem State.setCell_massage (c : Fin 12) (x : Cell) (s : State) : (State.setCell c x s).massage = s.massage := rfl
@[simp] theorem State.setCell_zones (c : Fin 12) (x : Cell) (s : State) : (State.setCell c x s).zones = s.zones := rfl
@[simp] theorem State.setCell_brace (c : Fin 12) (x : Cell) (s : State) : (State.setCell c x s).brace = s.brace := rfl
@[simp] theorem State.setCell_link (c : Fin 12) (x : Cell) (s : State) : (State.setCell c x s).link = s.link := rfl
@[simp] theorem State.setCell_power (c : Fin 12) (x : Cell) (s : State) : (State.setCell c x s).power = s.power := rfl
@[simp] theorem State.setCell_sense (c : Fin 12) (x : Cell) (s : State) : (State.setCell c x s).sense = s.sense := rfl
@[simp] theorem State.setCell_agenda (c : Fin 12) (x : Cell) (s : State) : (State.setCell c x s).agenda = s.agenda := rfl
@[simp] theorem State.setCell_pending (c : Fin 12) (x : Cell) (s : State) : (State.setCell c x s).pending = s.pending := rfl

/-! ### `State.setZone` -/

@[simp] theorem State.setZone_axes (z : Fin 4) (x : Zone) (s : State) : (State.setZone z x s).axes = s.axes := rfl
@[simp] theorem State.setZone_claims (z : Fin 4) (x : Zone) (s : State) : (State.setZone z x s).claims = s.claims := rfl
@[simp] theorem State.setZone_gov (z : Fin 4) (x : Zone) (s : State) : (State.setZone z x s).gov = s.gov := rfl
@[simp] theorem State.setZone_plans (z : Fin 4) (x : Zone) (s : State) : (State.setZone z x s).plans = s.plans := rfl
@[simp] theorem State.setZone_profiles (z : Fin 4) (x : Zone) (s : State) : (State.setZone z x s).profiles = s.profiles := rfl
@[simp] theorem State.setZone_lastProfile (z : Fin 4) (x : Zone) (s : State) : (State.setZone z x s).lastProfile = s.lastProfile := rfl
@[simp] theorem State.setZone_store (z : Fin 4) (x : Zone) (s : State) : (State.setZone z x s).store = s.store := rfl
@[simp] theorem State.setZone_switches (z : Fin 4) (x : Zone) (s : State) : (State.setZone z x s).switches = s.switches := rfl
@[simp] theorem State.setZone_cells (z : Fin 4) (x : Zone) (s : State) : (State.setZone z x s).cells = s.cells := rfl
@[simp] theorem State.setZone_massage (z : Fin 4) (x : Zone) (s : State) : (State.setZone z x s).massage = s.massage := rfl
@[simp] theorem State.setZone_zones (z : Fin 4) (x : Zone) (s : State) : (State.setZone z x s).zones = s.zones.set z x := rfl
@[simp] theorem State.setZone_brace (z : Fin 4) (x : Zone) (s : State) : (State.setZone z x s).brace = s.brace := rfl
@[simp] theorem State.setZone_link (z : Fin 4) (x : Zone) (s : State) : (State.setZone z x s).link = s.link := rfl
@[simp] theorem State.setZone_power (z : Fin 4) (x : Zone) (s : State) : (State.setZone z x s).power = s.power := rfl
@[simp] theorem State.setZone_sense (z : Fin 4) (x : Zone) (s : State) : (State.setZone z x s).sense = s.sense := rfl
@[simp] theorem State.setZone_agenda (z : Fin 4) (x : Zone) (s : State) : (State.setZone z x s).agenda = s.agenda := rfl
@[simp] theorem State.setZone_pending (z : Fin 4) (x : Zone) (s : State) : (State.setZone z x s).pending = s.pending := rfl

/-! ### `State.setCurrent` -/

@[simp] theorem State.setCurrent_axes (p : Option Plan) (s : State) : (State.setCurrent p s).axes = s.axes := rfl
@[simp] theorem State.setCurrent_claims (p : Option Plan) (s : State) : (State.setCurrent p s).claims = s.claims := rfl
@[simp] theorem State.setCurrent_gov (p : Option Plan) (s : State) : (State.setCurrent p s).gov = s.gov := rfl
@[simp] theorem State.setCurrent_plans (p : Option Plan) (s : State) : (State.setCurrent p s).plans = { s.plans with current := p } := rfl
@[simp] theorem State.setCurrent_profiles (p : Option Plan) (s : State) : (State.setCurrent p s).profiles = s.profiles := rfl
@[simp] theorem State.setCurrent_lastProfile (p : Option Plan) (s : State) : (State.setCurrent p s).lastProfile = s.lastProfile := rfl
@[simp] theorem State.setCurrent_store (p : Option Plan) (s : State) : (State.setCurrent p s).store = s.store := rfl
@[simp] theorem State.setCurrent_switches (p : Option Plan) (s : State) : (State.setCurrent p s).switches = s.switches := rfl
@[simp] theorem State.setCurrent_cells (p : Option Plan) (s : State) : (State.setCurrent p s).cells = s.cells := rfl
@[simp] theorem State.setCurrent_massage (p : Option Plan) (s : State) : (State.setCurrent p s).massage = s.massage := rfl
@[simp] theorem State.setCurrent_zones (p : Option Plan) (s : State) : (State.setCurrent p s).zones = s.zones := rfl
@[simp] theorem State.setCurrent_brace (p : Option Plan) (s : State) : (State.setCurrent p s).brace = s.brace := rfl
@[simp] theorem State.setCurrent_link (p : Option Plan) (s : State) : (State.setCurrent p s).link = s.link := rfl
@[simp] theorem State.setCurrent_power (p : Option Plan) (s : State) : (State.setCurrent p s).power = s.power := rfl
@[simp] theorem State.setCurrent_sense (p : Option Plan) (s : State) : (State.setCurrent p s).sense = s.sense := rfl
@[simp] theorem State.setCurrent_agenda (p : Option Plan) (s : State) : (State.setCurrent p s).agenda = s.agenda := rfl
@[simp] theorem State.setCurrent_pending (p : Option Plan) (s : State) : (State.setCurrent p s).pending = s.pending := rfl

/-! ### `State.onCurrent` -/

@[simp] theorem State.onCurrent_axes (f : Plan → Plan) (s : State) : (State.onCurrent f s).axes = s.axes := rfl
@[simp] theorem State.onCurrent_claims (f : Plan → Plan) (s : State) : (State.onCurrent f s).claims = s.claims := rfl
@[simp] theorem State.onCurrent_gov (f : Plan → Plan) (s : State) : (State.onCurrent f s).gov = s.gov := rfl
@[simp] theorem State.onCurrent_plans (f : Plan → Plan) (s : State) : (State.onCurrent f s).plans = { s.plans with current := s.plans.current.map f } := rfl
@[simp] theorem State.onCurrent_profiles (f : Plan → Plan) (s : State) : (State.onCurrent f s).profiles = s.profiles := rfl
@[simp] theorem State.onCurrent_lastProfile (f : Plan → Plan) (s : State) : (State.onCurrent f s).lastProfile = s.lastProfile := rfl
@[simp] theorem State.onCurrent_store (f : Plan → Plan) (s : State) : (State.onCurrent f s).store = s.store := rfl
@[simp] theorem State.onCurrent_switches (f : Plan → Plan) (s : State) : (State.onCurrent f s).switches = s.switches := rfl
@[simp] theorem State.onCurrent_cells (f : Plan → Plan) (s : State) : (State.onCurrent f s).cells = s.cells := rfl
@[simp] theorem State.onCurrent_massage (f : Plan → Plan) (s : State) : (State.onCurrent f s).massage = s.massage := rfl
@[simp] theorem State.onCurrent_zones (f : Plan → Plan) (s : State) : (State.onCurrent f s).zones = s.zones := rfl
@[simp] theorem State.onCurrent_brace (f : Plan → Plan) (s : State) : (State.onCurrent f s).brace = s.brace := rfl
@[simp] theorem State.onCurrent_link (f : Plan → Plan) (s : State) : (State.onCurrent f s).link = s.link := rfl
@[simp] theorem State.onCurrent_power (f : Plan → Plan) (s : State) : (State.onCurrent f s).power = s.power := rfl
@[simp] theorem State.onCurrent_sense (f : Plan → Plan) (s : State) : (State.onCurrent f s).sense = s.sense := rfl
@[simp] theorem State.onCurrent_agenda (f : Plan → Plan) (s : State) : (State.onCurrent f s).agenda = s.agenda := rfl
@[simp] theorem State.onCurrent_pending (f : Plan → Plan) (s : State) : (State.onCurrent f s).pending = s.pending := rfl

/-! ### `State.dropEntry` -/

@[simp] theorem State.dropEntry_axes (a : Fin 8) (s : State) : (State.dropEntry a s).axes = s.axes := rfl
@[simp] theorem State.dropEntry_claims (a : Fin 8) (s : State) : (State.dropEntry a s).claims = { s.claims with queue := s.claims.queue.filter (·.axis != a) } := rfl
@[simp] theorem State.dropEntry_gov (a : Fin 8) (s : State) : (State.dropEntry a s).gov = s.gov := rfl
@[simp] theorem State.dropEntry_plans (a : Fin 8) (s : State) : (State.dropEntry a s).plans = s.plans := rfl
@[simp] theorem State.dropEntry_profiles (a : Fin 8) (s : State) : (State.dropEntry a s).profiles = s.profiles := rfl
@[simp] theorem State.dropEntry_lastProfile (a : Fin 8) (s : State) : (State.dropEntry a s).lastProfile = s.lastProfile := rfl
@[simp] theorem State.dropEntry_store (a : Fin 8) (s : State) : (State.dropEntry a s).store = s.store := rfl
@[simp] theorem State.dropEntry_switches (a : Fin 8) (s : State) : (State.dropEntry a s).switches = s.switches := rfl
@[simp] theorem State.dropEntry_cells (a : Fin 8) (s : State) : (State.dropEntry a s).cells = s.cells := rfl
@[simp] theorem State.dropEntry_massage (a : Fin 8) (s : State) : (State.dropEntry a s).massage = s.massage := rfl
@[simp] theorem State.dropEntry_zones (a : Fin 8) (s : State) : (State.dropEntry a s).zones = s.zones := rfl
@[simp] theorem State.dropEntry_brace (a : Fin 8) (s : State) : (State.dropEntry a s).brace = s.brace := rfl
@[simp] theorem State.dropEntry_link (a : Fin 8) (s : State) : (State.dropEntry a s).link = s.link := rfl
@[simp] theorem State.dropEntry_power (a : Fin 8) (s : State) : (State.dropEntry a s).power = s.power := rfl
@[simp] theorem State.dropEntry_sense (a : Fin 8) (s : State) : (State.dropEntry a s).sense = s.sense := rfl
@[simp] theorem State.dropEntry_agenda (a : Fin 8) (s : State) : (State.dropEntry a s).agenda = s.agenda := rfl
@[simp] theorem State.dropEntry_pending (a : Fin 8) (s : State) : (State.dropEntry a s).pending = s.pending := rfl

/-! ### `State.freeSlotOf` -/

@[simp] theorem State.freeSlotOf_axes (a : Fin 8) (s : State) : (State.freeSlotOf a s).axes = s.axes := rfl
@[simp] theorem State.freeSlotOf_claims (a : Fin 8) (s : State) : (State.freeSlotOf a s).claims = { s.claims with slots := s.claims.slots.map fun x => if x.any (·.axis == a) then none else x } := rfl
@[simp] theorem State.freeSlotOf_gov (a : Fin 8) (s : State) : (State.freeSlotOf a s).gov = s.gov := rfl
@[simp] theorem State.freeSlotOf_plans (a : Fin 8) (s : State) : (State.freeSlotOf a s).plans = s.plans := rfl
@[simp] theorem State.freeSlotOf_profiles (a : Fin 8) (s : State) : (State.freeSlotOf a s).profiles = s.profiles := rfl
@[simp] theorem State.freeSlotOf_lastProfile (a : Fin 8) (s : State) : (State.freeSlotOf a s).lastProfile = s.lastProfile := rfl
@[simp] theorem State.freeSlotOf_store (a : Fin 8) (s : State) : (State.freeSlotOf a s).store = s.store := rfl
@[simp] theorem State.freeSlotOf_switches (a : Fin 8) (s : State) : (State.freeSlotOf a s).switches = s.switches := rfl
@[simp] theorem State.freeSlotOf_cells (a : Fin 8) (s : State) : (State.freeSlotOf a s).cells = s.cells := rfl
@[simp] theorem State.freeSlotOf_massage (a : Fin 8) (s : State) : (State.freeSlotOf a s).massage = s.massage := rfl
@[simp] theorem State.freeSlotOf_zones (a : Fin 8) (s : State) : (State.freeSlotOf a s).zones = s.zones := rfl
@[simp] theorem State.freeSlotOf_brace (a : Fin 8) (s : State) : (State.freeSlotOf a s).brace = s.brace := rfl
@[simp] theorem State.freeSlotOf_link (a : Fin 8) (s : State) : (State.freeSlotOf a s).link = s.link := rfl
@[simp] theorem State.freeSlotOf_power (a : Fin 8) (s : State) : (State.freeSlotOf a s).power = s.power := rfl
@[simp] theorem State.freeSlotOf_sense (a : Fin 8) (s : State) : (State.freeSlotOf a s).sense = s.sense := rfl
@[simp] theorem State.freeSlotOf_agenda (a : Fin 8) (s : State) : (State.freeSlotOf a s).agenda = s.agenda := rfl
@[simp] theorem State.freeSlotOf_pending (a : Fin 8) (s : State) : (State.freeSlotOf a s).pending = s.pending := rfl

/-! ### `State.setJog` -/

@[simp] theorem State.setJog_axes (a : Fin 8) (j : JogStanding) (s : State) : (State.setJog a j s).axes = s.axes := rfl
@[simp] theorem State.setJog_claims (a : Fin 8) (j : JogStanding) (s : State) : (State.setJog a j s).claims = s.claims := rfl
@[simp] theorem State.setJog_gov (a : Fin 8) (j : JogStanding) (s : State) : (State.setJog a j s).gov = s.gov := rfl
@[simp] theorem State.setJog_plans (a : Fin 8) (j : JogStanding) (s : State) : (State.setJog a j s).plans = s.plans := rfl
@[simp] theorem State.setJog_profiles (a : Fin 8) (j : JogStanding) (s : State) : (State.setJog a j s).profiles = s.profiles := rfl
@[simp] theorem State.setJog_lastProfile (a : Fin 8) (j : JogStanding) (s : State) : (State.setJog a j s).lastProfile = s.lastProfile := rfl
@[simp] theorem State.setJog_store (a : Fin 8) (j : JogStanding) (s : State) : (State.setJog a j s).store = s.store := rfl
@[simp] theorem State.setJog_switches (a : Fin 8) (j : JogStanding) (s : State) : (State.setJog a j s).switches = { s.switches with pairs := upd s.switches.pairs a fun p => { p with jog := j } } := rfl
@[simp] theorem State.setJog_cells (a : Fin 8) (j : JogStanding) (s : State) : (State.setJog a j s).cells = s.cells := rfl
@[simp] theorem State.setJog_massage (a : Fin 8) (j : JogStanding) (s : State) : (State.setJog a j s).massage = s.massage := rfl
@[simp] theorem State.setJog_zones (a : Fin 8) (j : JogStanding) (s : State) : (State.setJog a j s).zones = s.zones := rfl
@[simp] theorem State.setJog_brace (a : Fin 8) (j : JogStanding) (s : State) : (State.setJog a j s).brace = s.brace := rfl
@[simp] theorem State.setJog_link (a : Fin 8) (j : JogStanding) (s : State) : (State.setJog a j s).link = s.link := rfl
@[simp] theorem State.setJog_power (a : Fin 8) (j : JogStanding) (s : State) : (State.setJog a j s).power = s.power := rfl
@[simp] theorem State.setJog_sense (a : Fin 8) (j : JogStanding) (s : State) : (State.setJog a j s).sense = s.sense := rfl
@[simp] theorem State.setJog_agenda (a : Fin 8) (j : JogStanding) (s : State) : (State.setJog a j s).agenda = s.agenda := rfl
@[simp] theorem State.setJog_pending (a : Fin 8) (j : JogStanding) (s : State) : (State.setJog a j s).pending = s.pending := rfl

/-! ### `State.setInput` -/

@[simp] theorem State.setInput_axes (c : Contact) (b : Bool) (s : State) : (State.setInput c b s).axes = s.axes := rfl
@[simp] theorem State.setInput_claims (c : Contact) (b : Bool) (s : State) : (State.setInput c b s).claims = s.claims := rfl
@[simp] theorem State.setInput_gov (c : Contact) (b : Bool) (s : State) : (State.setInput c b s).gov = s.gov := rfl
@[simp] theorem State.setInput_plans (c : Contact) (b : Bool) (s : State) : (State.setInput c b s).plans = s.plans := rfl
@[simp] theorem State.setInput_profiles (c : Contact) (b : Bool) (s : State) : (State.setInput c b s).profiles = s.profiles := rfl
@[simp] theorem State.setInput_lastProfile (c : Contact) (b : Bool) (s : State) : (State.setInput c b s).lastProfile = s.lastProfile := rfl
@[simp] theorem State.setInput_store (c : Contact) (b : Bool) (s : State) : (State.setInput c b s).store = s.store := rfl
@[simp] theorem State.setInput_switches (c : Contact) (b : Bool) (s : State) : (State.setInput c b s).switches = { s.switches with contacts := upd s.switches.contacts (contactIndex c) fun x => { x with pressed := b } } := rfl
@[simp] theorem State.setInput_cells (c : Contact) (b : Bool) (s : State) : (State.setInput c b s).cells = s.cells := rfl
@[simp] theorem State.setInput_massage (c : Contact) (b : Bool) (s : State) : (State.setInput c b s).massage = s.massage := rfl
@[simp] theorem State.setInput_zones (c : Contact) (b : Bool) (s : State) : (State.setInput c b s).zones = s.zones := rfl
@[simp] theorem State.setInput_brace (c : Contact) (b : Bool) (s : State) : (State.setInput c b s).brace = s.brace := rfl
@[simp] theorem State.setInput_link (c : Contact) (b : Bool) (s : State) : (State.setInput c b s).link = s.link := rfl
@[simp] theorem State.setInput_power (c : Contact) (b : Bool) (s : State) : (State.setInput c b s).power = s.power := rfl
@[simp] theorem State.setInput_sense (c : Contact) (b : Bool) (s : State) : (State.setInput c b s).sense = s.sense := rfl
@[simp] theorem State.setInput_agenda (c : Contact) (b : Bool) (s : State) : (State.setInput c b s).agenda = s.agenda := rfl
@[simp] theorem State.setInput_pending (c : Contact) (b : Bool) (s : State) : (State.setInput c b s).pending = s.pending := rfl

/-! ### `State.unqueue` -/

@[simp] theorem State.unqueue_axes (c : Fin 12) (s : State) : (State.unqueue c s).axes = s.axes := rfl
@[simp] theorem State.unqueue_claims (c : Fin 12) (s : State) : (State.unqueue c s).claims = s.claims := rfl
@[simp] theorem State.unqueue_gov (c : Fin 12) (s : State) : (State.unqueue c s).gov = s.gov := rfl
@[simp] theorem State.unqueue_plans (c : Fin 12) (s : State) : (State.unqueue c s).plans = s.plans := rfl
@[simp] theorem State.unqueue_profiles (c : Fin 12) (s : State) : (State.unqueue c s).profiles = s.profiles := rfl
@[simp] theorem State.unqueue_lastProfile (c : Fin 12) (s : State) : (State.unqueue c s).lastProfile = s.lastProfile := rfl
@[simp] theorem State.unqueue_store (c : Fin 12) (s : State) : (State.unqueue c s).store = s.store := rfl
@[simp] theorem State.unqueue_switches (c : Fin 12) (s : State) : (State.unqueue c s).switches = s.switches := rfl
@[simp] theorem State.unqueue_cells (c : Fin 12) (s : State) : (State.unqueue c s).cells = { s.cells with queue := s.cells.queue.filter (· != c) } := rfl
@[simp] theorem State.unqueue_massage (c : Fin 12) (s : State) : (State.unqueue c s).massage = s.massage := rfl
@[simp] theorem State.unqueue_zones (c : Fin 12) (s : State) : (State.unqueue c s).zones = s.zones := rfl
@[simp] theorem State.unqueue_brace (c : Fin 12) (s : State) : (State.unqueue c s).brace = s.brace := rfl
@[simp] theorem State.unqueue_link (c : Fin 12) (s : State) : (State.unqueue c s).link = s.link := rfl
@[simp] theorem State.unqueue_power (c : Fin 12) (s : State) : (State.unqueue c s).power = s.power := rfl
@[simp] theorem State.unqueue_sense (c : Fin 12) (s : State) : (State.unqueue c s).sense = s.sense := rfl
@[simp] theorem State.unqueue_agenda (c : Fin 12) (s : State) : (State.unqueue c s).agenda = s.agenda := rfl
@[simp] theorem State.unqueue_pending (c : Fin 12) (s : State) : (State.unqueue c s).pending = s.pending := rfl

/-! ### `State.sensePump` -/

@[simp] theorem State.sensePump_axes (v : Nat) (s : State) : (State.sensePump v s).axes = s.axes := rfl
@[simp] theorem State.sensePump_claims (v : Nat) (s : State) : (State.sensePump v s).claims = s.claims := rfl
@[simp] theorem State.sensePump_gov (v : Nat) (s : State) : (State.sensePump v s).gov = s.gov := rfl
@[simp] theorem State.sensePump_plans (v : Nat) (s : State) : (State.sensePump v s).plans = s.plans := rfl
@[simp] theorem State.sensePump_profiles (v : Nat) (s : State) : (State.sensePump v s).profiles = s.profiles := rfl
@[simp] theorem State.sensePump_lastProfile (v : Nat) (s : State) : (State.sensePump v s).lastProfile = s.lastProfile := rfl
@[simp] theorem State.sensePump_store (v : Nat) (s : State) : (State.sensePump v s).store = s.store := rfl
@[simp] theorem State.sensePump_switches (v : Nat) (s : State) : (State.sensePump v s).switches = s.switches := rfl
@[simp] theorem State.sensePump_cells (v : Nat) (s : State) : (State.sensePump v s).cells = s.cells := rfl
@[simp] theorem State.sensePump_massage (v : Nat) (s : State) : (State.sensePump v s).massage = s.massage := rfl
@[simp] theorem State.sensePump_zones (v : Nat) (s : State) : (State.sensePump v s).zones = s.zones := rfl
@[simp] theorem State.sensePump_brace (v : Nat) (s : State) : (State.sensePump v s).brace = s.brace := rfl
@[simp] theorem State.sensePump_link (v : Nat) (s : State) : (State.sensePump v s).link = s.link := rfl
@[simp] theorem State.sensePump_power (v : Nat) (s : State) : (State.sensePump v s).power = s.power := rfl
@[simp] theorem State.sensePump_sense (v : Nat) (s : State) : (State.sensePump v s).sense = { s.sense with pumpCurrent := v } := rfl
@[simp] theorem State.sensePump_agenda (v : Nat) (s : State) : (State.sensePump v s).agenda = s.agenda := rfl
@[simp] theorem State.sensePump_pending (v : Nat) (s : State) : (State.sensePump v s).pending = s.pending := rfl

/-! ### `State.senseSupply` -/

@[simp] theorem State.senseSupply_axes (v : Nat) (s : State) : (State.senseSupply v s).axes = s.axes := rfl
@[simp] theorem State.senseSupply_claims (v : Nat) (s : State) : (State.senseSupply v s).claims = s.claims := rfl
@[simp] theorem State.senseSupply_gov (v : Nat) (s : State) : (State.senseSupply v s).gov = s.gov := rfl
@[simp] theorem State.senseSupply_plans (v : Nat) (s : State) : (State.senseSupply v s).plans = s.plans := rfl
@[simp] theorem State.senseSupply_profiles (v : Nat) (s : State) : (State.senseSupply v s).profiles = s.profiles := rfl
@[simp] theorem State.senseSupply_lastProfile (v : Nat) (s : State) : (State.senseSupply v s).lastProfile = s.lastProfile := rfl
@[simp] theorem State.senseSupply_store (v : Nat) (s : State) : (State.senseSupply v s).store = s.store := rfl
@[simp] theorem State.senseSupply_switches (v : Nat) (s : State) : (State.senseSupply v s).switches = s.switches := rfl
@[simp] theorem State.senseSupply_cells (v : Nat) (s : State) : (State.senseSupply v s).cells = s.cells := rfl
@[simp] theorem State.senseSupply_massage (v : Nat) (s : State) : (State.senseSupply v s).massage = s.massage := rfl
@[simp] theorem State.senseSupply_zones (v : Nat) (s : State) : (State.senseSupply v s).zones = s.zones := rfl
@[simp] theorem State.senseSupply_brace (v : Nat) (s : State) : (State.senseSupply v s).brace = s.brace := rfl
@[simp] theorem State.senseSupply_link (v : Nat) (s : State) : (State.senseSupply v s).link = s.link := rfl
@[simp] theorem State.senseSupply_power (v : Nat) (s : State) : (State.senseSupply v s).power = s.power := rfl
@[simp] theorem State.senseSupply_sense (v : Nat) (s : State) : (State.senseSupply v s).sense = { s.sense with supply := v } := rfl
@[simp] theorem State.senseSupply_agenda (v : Nat) (s : State) : (State.senseSupply v s).agenda = s.agenda := rfl
@[simp] theorem State.senseSupply_pending (v : Nat) (s : State) : (State.senseSupply v s).pending = s.pending := rfl

/-! ### `State.failFrame` -/

@[simp] theorem State.failFrame_axes (s : State) : (State.failFrame s).axes = s.axes := rfl
@[simp] theorem State.failFrame_claims (s : State) : (State.failFrame s).claims = s.claims := rfl
@[simp] theorem State.failFrame_gov (s : State) : (State.failFrame s).gov = s.gov := rfl
@[simp] theorem State.failFrame_plans (s : State) : (State.failFrame s).plans = s.plans := rfl
@[simp] theorem State.failFrame_profiles (s : State) : (State.failFrame s).profiles = s.profiles := rfl
@[simp] theorem State.failFrame_lastProfile (s : State) : (State.failFrame s).lastProfile = s.lastProfile := rfl
@[simp] theorem State.failFrame_store (s : State) : (State.failFrame s).store = s.store := rfl
@[simp] theorem State.failFrame_switches (s : State) : (State.failFrame s).switches = s.switches := rfl
@[simp] theorem State.failFrame_cells (s : State) : (State.failFrame s).cells = s.cells := rfl
@[simp] theorem State.failFrame_massage (s : State) : (State.failFrame s).massage = s.massage := rfl
@[simp] theorem State.failFrame_zones (s : State) : (State.failFrame s).zones = s.zones := rfl
@[simp] theorem State.failFrame_brace (s : State) : (State.failFrame s).brace = s.brace := rfl
@[simp] theorem State.failFrame_link (s : State) : (State.failFrame s).link = { s.link with receiver := .hunting, owed := oweFrameError s.link.owed } := rfl
@[simp] theorem State.failFrame_power (s : State) : (State.failFrame s).power = s.power := rfl
@[simp] theorem State.failFrame_sense (s : State) : (State.failFrame s).sense = s.sense := rfl
@[simp] theorem State.failFrame_agenda (s : State) : (State.failFrame s).agenda = s.agenda := rfl
@[simp] theorem State.failFrame_pending (s : State) : (State.failFrame s).pending = s.pending := rfl

/-! ### `State.postIf` -/

@[simp] theorem State.postIf_axes (b : Bool) (k : NoticeKind) (s : State) : (State.postIf b k s).axes = s.axes := by unfold State.postIf; split <;> rfl
@[simp] theorem State.postIf_claims (b : Bool) (k : NoticeKind) (s : State) : (State.postIf b k s).claims = s.claims := by unfold State.postIf; split <;> rfl
@[simp] theorem State.postIf_gov (b : Bool) (k : NoticeKind) (s : State) : (State.postIf b k s).gov = s.gov := by unfold State.postIf; split <;> rfl
@[simp] theorem State.postIf_plans (b : Bool) (k : NoticeKind) (s : State) : (State.postIf b k s).plans = s.plans := by unfold State.postIf; split <;> rfl
@[simp] theorem State.postIf_profiles (b : Bool) (k : NoticeKind) (s : State) : (State.postIf b k s).profiles = s.profiles := by unfold State.postIf; split <;> rfl
@[simp] theorem State.postIf_lastProfile (b : Bool) (k : NoticeKind) (s : State) : (State.postIf b k s).lastProfile = s.lastProfile := by unfold State.postIf; split <;> rfl
@[simp] theorem State.postIf_store (b : Bool) (k : NoticeKind) (s : State) : (State.postIf b k s).store = s.store := by unfold State.postIf; split <;> rfl
@[simp] theorem State.postIf_switches (b : Bool) (k : NoticeKind) (s : State) : (State.postIf b k s).switches = s.switches := by unfold State.postIf; split <;> rfl
@[simp] theorem State.postIf_cells (b : Bool) (k : NoticeKind) (s : State) : (State.postIf b k s).cells = s.cells := by unfold State.postIf; split <;> rfl
@[simp] theorem State.postIf_massage (b : Bool) (k : NoticeKind) (s : State) : (State.postIf b k s).massage = s.massage := by unfold State.postIf; split <;> rfl
@[simp] theorem State.postIf_zones (b : Bool) (k : NoticeKind) (s : State) : (State.postIf b k s).zones = s.zones := by unfold State.postIf; split <;> rfl
@[simp] theorem State.postIf_brace (b : Bool) (k : NoticeKind) (s : State) : (State.postIf b k s).brace = s.brace := by unfold State.postIf; split <;> rfl
@[simp] theorem State.postIf_power (b : Bool) (k : NoticeKind) (s : State) : (State.postIf b k s).power = s.power := by unfold State.postIf; split <;> rfl
@[simp] theorem State.postIf_sense (b : Bool) (k : NoticeKind) (s : State) : (State.postIf b k s).sense = s.sense := by unfold State.postIf; split <;> rfl
@[simp] theorem State.postIf_agenda (b : Bool) (k : NoticeKind) (s : State) : (State.postIf b k s).agenda = s.agenda := by unfold State.postIf; split <;> rfl
@[simp] theorem State.postIf_pending (b : Bool) (k : NoticeKind) (s : State) : (State.postIf b k s).pending = s.pending := by unfold State.postIf; split <;> rfl

/-! ### `State.setOwner` -/

@[simp] theorem State.setOwner_axes (a : Fin 8) (o : Owner) (s : State) : (State.setOwner a o s).axes = s.axes := by unfold State.setOwner; simp
@[simp] theorem State.setOwner_gov (a : Fin 8) (o : Owner) (s : State) : (State.setOwner a o s).gov = s.gov := by unfold State.setOwner; simp
@[simp] theorem State.setOwner_plans (a : Fin 8) (o : Owner) (s : State) : (State.setOwner a o s).plans = s.plans := by unfold State.setOwner; simp
@[simp] theorem State.setOwner_profiles (a : Fin 8) (o : Owner) (s : State) : (State.setOwner a o s).profiles = s.profiles := by unfold State.setOwner; simp
@[simp] theorem State.setOwner_lastProfile (a : Fin 8) (o : Owner) (s : State) : (State.setOwner a o s).lastProfile = s.lastProfile := by unfold State.setOwner; simp
@[simp] theorem State.setOwner_store (a : Fin 8) (o : Owner) (s : State) : (State.setOwner a o s).store = s.store := by unfold State.setOwner; simp
@[simp] theorem State.setOwner_switches (a : Fin 8) (o : Owner) (s : State) : (State.setOwner a o s).switches = s.switches := by unfold State.setOwner; simp
@[simp] theorem State.setOwner_cells (a : Fin 8) (o : Owner) (s : State) : (State.setOwner a o s).cells = s.cells := by unfold State.setOwner; simp
@[simp] theorem State.setOwner_massage (a : Fin 8) (o : Owner) (s : State) : (State.setOwner a o s).massage = s.massage := by unfold State.setOwner; simp
@[simp] theorem State.setOwner_zones (a : Fin 8) (o : Owner) (s : State) : (State.setOwner a o s).zones = s.zones := by unfold State.setOwner; simp
@[simp] theorem State.setOwner_brace (a : Fin 8) (o : Owner) (s : State) : (State.setOwner a o s).brace = s.brace := by unfold State.setOwner; simp
@[simp] theorem State.setOwner_power (a : Fin 8) (o : Owner) (s : State) : (State.setOwner a o s).power = s.power := by unfold State.setOwner; simp
@[simp] theorem State.setOwner_sense (a : Fin 8) (o : Owner) (s : State) : (State.setOwner a o s).sense = s.sense := by unfold State.setOwner; simp
@[simp] theorem State.setOwner_agenda (a : Fin 8) (o : Owner) (s : State) : (State.setOwner a o s).agenda = s.agenda := by unfold State.setOwner; simp
@[simp] theorem State.setOwner_pending (a : Fin 8) (o : Owner) (s : State) : (State.setOwner a o s).pending = s.pending := by unfold State.setOwner; simp

/-! ### `State.takeSlot` -/

@[simp] theorem State.takeSlot_axes (x : Slot) (s : State) : (State.takeSlot x s).axes = s.axes := by unfold State.takeSlot; split <;> rfl
@[simp] theorem State.takeSlot_gov (x : Slot) (s : State) : (State.takeSlot x s).gov = s.gov := by unfold State.takeSlot; split <;> rfl
@[simp] theorem State.takeSlot_plans (x : Slot) (s : State) : (State.takeSlot x s).plans = s.plans := by unfold State.takeSlot; split <;> rfl
@[simp] theorem State.takeSlot_profiles (x : Slot) (s : State) : (State.takeSlot x s).profiles = s.profiles := by unfold State.takeSlot; split <;> rfl
@[simp] theorem State.takeSlot_lastProfile (x : Slot) (s : State) : (State.takeSlot x s).lastProfile = s.lastProfile := by unfold State.takeSlot; split <;> rfl
@[simp] theorem State.takeSlot_store (x : Slot) (s : State) : (State.takeSlot x s).store = s.store := by unfold State.takeSlot; split <;> rfl
@[simp] theorem State.takeSlot_switches (x : Slot) (s : State) : (State.takeSlot x s).switches = s.switches := by unfold State.takeSlot; split <;> rfl
@[simp] theorem State.takeSlot_cells (x : Slot) (s : State) : (State.takeSlot x s).cells = s.cells := by unfold State.takeSlot; split <;> rfl
@[simp] theorem State.takeSlot_massage (x : Slot) (s : State) : (State.takeSlot x s).massage = s.massage := by unfold State.takeSlot; split <;> rfl
@[simp] theorem State.takeSlot_zones (x : Slot) (s : State) : (State.takeSlot x s).zones = s.zones := by unfold State.takeSlot; split <;> rfl
@[simp] theorem State.takeSlot_brace (x : Slot) (s : State) : (State.takeSlot x s).brace = s.brace := by unfold State.takeSlot; split <;> rfl
@[simp] theorem State.takeSlot_link (x : Slot) (s : State) : (State.takeSlot x s).link = s.link := by unfold State.takeSlot; split <;> rfl
@[simp] theorem State.takeSlot_power (x : Slot) (s : State) : (State.takeSlot x s).power = s.power := by unfold State.takeSlot; split <;> rfl
@[simp] theorem State.takeSlot_sense (x : Slot) (s : State) : (State.takeSlot x s).sense = s.sense := by unfold State.takeSlot; split <;> rfl
@[simp] theorem State.takeSlot_agenda (x : Slot) (s : State) : (State.takeSlot x s).agenda = s.agenda := by unfold State.takeSlot; split <;> rfl
@[simp] theorem State.takeSlot_pending (x : Slot) (s : State) : (State.takeSlot x s).pending = s.pending := by unfold State.takeSlot; split <;> rfl

/-! ### `State.hold` -/

@[simp] theorem State.hold_axes (a : Fin 8) (o : Owner) (s : State) : (State.hold a o s).axes = s.axes := rfl
@[simp] theorem State.hold_gov (a : Fin 8) (o : Owner) (s : State) : (State.hold a o s).gov = s.gov := rfl
@[simp] theorem State.hold_plans (a : Fin 8) (o : Owner) (s : State) : (State.hold a o s).plans = s.plans := rfl
@[simp] theorem State.hold_profiles (a : Fin 8) (o : Owner) (s : State) : (State.hold a o s).profiles = s.profiles := rfl
@[simp] theorem State.hold_lastProfile (a : Fin 8) (o : Owner) (s : State) : (State.hold a o s).lastProfile = s.lastProfile := rfl
@[simp] theorem State.hold_store (a : Fin 8) (o : Owner) (s : State) : (State.hold a o s).store = s.store := rfl
@[simp] theorem State.hold_switches (a : Fin 8) (o : Owner) (s : State) : (State.hold a o s).switches = s.switches := rfl
@[simp] theorem State.hold_cells (a : Fin 8) (o : Owner) (s : State) : (State.hold a o s).cells = s.cells := rfl
@[simp] theorem State.hold_massage (a : Fin 8) (o : Owner) (s : State) : (State.hold a o s).massage = s.massage := rfl
@[simp] theorem State.hold_zones (a : Fin 8) (o : Owner) (s : State) : (State.hold a o s).zones = s.zones := rfl
@[simp] theorem State.hold_brace (a : Fin 8) (o : Owner) (s : State) : (State.hold a o s).brace = s.brace := rfl
@[simp] theorem State.hold_link (a : Fin 8) (o : Owner) (s : State) : (State.hold a o s).link = s.link := rfl
@[simp] theorem State.hold_power (a : Fin 8) (o : Owner) (s : State) : (State.hold a o s).power = s.power := rfl
@[simp] theorem State.hold_sense (a : Fin 8) (o : Owner) (s : State) : (State.hold a o s).sense = s.sense := rfl
@[simp] theorem State.hold_agenda (a : Fin 8) (o : Owner) (s : State) : (State.hold a o s).agenda = s.agenda := rfl
@[simp] theorem State.hold_pending (a : Fin 8) (o : Owner) (s : State) : (State.hold a o s).pending = s.pending := rfl

/-! ### `State.syncValves` -/

@[simp] theorem State.syncValves_axes (s : State) : (State.syncValves s).axes = s.axes := rfl
@[simp] theorem State.syncValves_claims (s : State) : (State.syncValves s).claims = s.claims := rfl
@[simp] theorem State.syncValves_gov (s : State) : (State.syncValves s).gov = s.gov := rfl
@[simp] theorem State.syncValves_plans (s : State) : (State.syncValves s).plans = s.plans := rfl
@[simp] theorem State.syncValves_profiles (s : State) : (State.syncValves s).profiles = s.profiles := rfl
@[simp] theorem State.syncValves_lastProfile (s : State) : (State.syncValves s).lastProfile = s.lastProfile := rfl
@[simp] theorem State.syncValves_store (s : State) : (State.syncValves s).store = s.store := rfl
@[simp] theorem State.syncValves_switches (s : State) : (State.syncValves s).switches = s.switches := rfl
@[simp] theorem State.syncValves_massage (s : State) : (State.syncValves s).massage = s.massage := rfl
@[simp] theorem State.syncValves_zones (s : State) : (State.syncValves s).zones = s.zones := rfl
@[simp] theorem State.syncValves_brace (s : State) : (State.syncValves s).brace = s.brace := rfl
@[simp] theorem State.syncValves_link (s : State) : (State.syncValves s).link = s.link := rfl
@[simp] theorem State.syncValves_power (s : State) : (State.syncValves s).power = s.power := rfl
@[simp] theorem State.syncValves_sense (s : State) : (State.syncValves s).sense = s.sense := rfl
@[simp] theorem State.syncValves_agenda (s : State) : (State.syncValves s).agenda = s.agenda := rfl
@[simp] theorem State.syncValves_pending (s : State) : (State.syncValves s).pending = s.pending := rfl

/-! ### `State.setPump` -/

@[simp] theorem State.setPump_axes (p : PumpState) (s : State) : (State.setPump p s).axes = s.axes := by unfold State.setPump; simp
@[simp] theorem State.setPump_claims (p : PumpState) (s : State) : (State.setPump p s).claims = s.claims := by unfold State.setPump; simp
@[simp] theorem State.setPump_gov (p : PumpState) (s : State) : (State.setPump p s).gov = s.gov := by unfold State.setPump; simp
@[simp] theorem State.setPump_plans (p : PumpState) (s : State) : (State.setPump p s).plans = s.plans := by unfold State.setPump; simp
@[simp] theorem State.setPump_profiles (p : PumpState) (s : State) : (State.setPump p s).profiles = s.profiles := by unfold State.setPump; simp
@[simp] theorem State.setPump_lastProfile (p : PumpState) (s : State) : (State.setPump p s).lastProfile = s.lastProfile := by unfold State.setPump; simp
@[simp] theorem State.setPump_store (p : PumpState) (s : State) : (State.setPump p s).store = s.store := by unfold State.setPump; simp
@[simp] theorem State.setPump_switches (p : PumpState) (s : State) : (State.setPump p s).switches = s.switches := by unfold State.setPump; simp
@[simp] theorem State.setPump_massage (p : PumpState) (s : State) : (State.setPump p s).massage = s.massage := by unfold State.setPump; simp
@[simp] theorem State.setPump_zones (p : PumpState) (s : State) : (State.setPump p s).zones = s.zones := by unfold State.setPump; simp
@[simp] theorem State.setPump_brace (p : PumpState) (s : State) : (State.setPump p s).brace = s.brace := by unfold State.setPump; simp
@[simp] theorem State.setPump_power (p : PumpState) (s : State) : (State.setPump p s).power = s.power := by unfold State.setPump; simp
@[simp] theorem State.setPump_sense (p : PumpState) (s : State) : (State.setPump p s).sense = s.sense := by unfold State.setPump; simp
@[simp] theorem State.setPump_agenda (p : PumpState) (s : State) : (State.setPump p s).agenda = s.agenda := by unfold State.setPump; simp
@[simp] theorem State.setPump_pending (p : PumpState) (s : State) : (State.setPump p s).pending = s.pending := by unfold State.setPump; simp

/-! ### `State.setBrace` -/

@[simp] theorem State.setBrace_axes (b : Brace) (s : State) : (State.setBrace b s).axes = s.axes := by unfold State.setBrace; simp
@[simp] theorem State.setBrace_claims (b : Brace) (s : State) : (State.setBrace b s).claims = s.claims := by unfold State.setBrace; simp
@[simp] theorem State.setBrace_gov (b : Brace) (s : State) : (State.setBrace b s).gov = s.gov := by unfold State.setBrace; simp
@[simp] theorem State.setBrace_plans (b : Brace) (s : State) : (State.setBrace b s).plans = s.plans := by unfold State.setBrace; simp
@[simp] theorem State.setBrace_profiles (b : Brace) (s : State) : (State.setBrace b s).profiles = s.profiles := by unfold State.setBrace; simp
@[simp] theorem State.setBrace_lastProfile (b : Brace) (s : State) : (State.setBrace b s).lastProfile = s.lastProfile := by unfold State.setBrace; simp
@[simp] theorem State.setBrace_store (b : Brace) (s : State) : (State.setBrace b s).store = s.store := by unfold State.setBrace; simp
@[simp] theorem State.setBrace_switches (b : Brace) (s : State) : (State.setBrace b s).switches = s.switches := by unfold State.setBrace; simp
@[simp] theorem State.setBrace_cells (b : Brace) (s : State) : (State.setBrace b s).cells = s.cells := by unfold State.setBrace; simp
@[simp] theorem State.setBrace_massage (b : Brace) (s : State) : (State.setBrace b s).massage = s.massage := by unfold State.setBrace; simp
@[simp] theorem State.setBrace_zones (b : Brace) (s : State) : (State.setBrace b s).zones = s.zones := by unfold State.setBrace; simp
@[simp] theorem State.setBrace_power (b : Brace) (s : State) : (State.setBrace b s).power = s.power := by unfold State.setBrace; simp
@[simp] theorem State.setBrace_sense (b : Brace) (s : State) : (State.setBrace b s).sense = s.sense := by unfold State.setBrace; simp
@[simp] theorem State.setBrace_agenda (b : Brace) (s : State) : (State.setBrace b s).agenda = s.agenda := by unfold State.setBrace; simp
@[simp] theorem State.setBrace_pending (b : Brace) (s : State) : (State.setBrace b s).pending = s.pending := by unfold State.setBrace; simp

/-! ### `State.onBraceAxis` -/

@[simp] theorem State.onBraceAxis_axes (a : Fin 8) (f : BraceAxis → BraceAxis) (s : State) : (State.onBraceAxis a f s).axes = s.axes := by unfold State.onBraceAxis; simp
@[simp] theorem State.onBraceAxis_claims (a : Fin 8) (f : BraceAxis → BraceAxis) (s : State) : (State.onBraceAxis a f s).claims = s.claims := by unfold State.onBraceAxis; simp
@[simp] theorem State.onBraceAxis_gov (a : Fin 8) (f : BraceAxis → BraceAxis) (s : State) : (State.onBraceAxis a f s).gov = s.gov := by unfold State.onBraceAxis; simp
@[simp] theorem State.onBraceAxis_plans (a : Fin 8) (f : BraceAxis → BraceAxis) (s : State) : (State.onBraceAxis a f s).plans = s.plans := by unfold State.onBraceAxis; simp
@[simp] theorem State.onBraceAxis_profiles (a : Fin 8) (f : BraceAxis → BraceAxis) (s : State) : (State.onBraceAxis a f s).profiles = s.profiles := by unfold State.onBraceAxis; simp
@[simp] theorem State.onBraceAxis_lastProfile (a : Fin 8) (f : BraceAxis → BraceAxis) (s : State) : (State.onBraceAxis a f s).lastProfile = s.lastProfile := by unfold State.onBraceAxis; simp
@[simp] theorem State.onBraceAxis_store (a : Fin 8) (f : BraceAxis → BraceAxis) (s : State) : (State.onBraceAxis a f s).store = s.store := by unfold State.onBraceAxis; simp
@[simp] theorem State.onBraceAxis_switches (a : Fin 8) (f : BraceAxis → BraceAxis) (s : State) : (State.onBraceAxis a f s).switches = s.switches := by unfold State.onBraceAxis; simp
@[simp] theorem State.onBraceAxis_cells (a : Fin 8) (f : BraceAxis → BraceAxis) (s : State) : (State.onBraceAxis a f s).cells = s.cells := by unfold State.onBraceAxis; simp
@[simp] theorem State.onBraceAxis_massage (a : Fin 8) (f : BraceAxis → BraceAxis) (s : State) : (State.onBraceAxis a f s).massage = s.massage := by unfold State.onBraceAxis; simp
@[simp] theorem State.onBraceAxis_zones (a : Fin 8) (f : BraceAxis → BraceAxis) (s : State) : (State.onBraceAxis a f s).zones = s.zones := by unfold State.onBraceAxis; simp
@[simp] theorem State.onBraceAxis_power (a : Fin 8) (f : BraceAxis → BraceAxis) (s : State) : (State.onBraceAxis a f s).power = s.power := by unfold State.onBraceAxis; simp
@[simp] theorem State.onBraceAxis_sense (a : Fin 8) (f : BraceAxis → BraceAxis) (s : State) : (State.onBraceAxis a f s).sense = s.sense := by unfold State.onBraceAxis; simp
@[simp] theorem State.onBraceAxis_agenda (a : Fin 8) (f : BraceAxis → BraceAxis) (s : State) : (State.onBraceAxis a f s).agenda = s.agenda := by unfold State.onBraceAxis; simp
@[simp] theorem State.onBraceAxis_pending (a : Fin 8) (f : BraceAxis → BraceAxis) (s : State) : (State.onBraceAxis a f s).pending = s.pending := by unfold State.onBraceAxis; simp

/-! ### `State.setContact` -/

@[simp] theorem State.setContact_axes (c : Contact) (x : ContactRec) (s : State) : (State.setContact c x s).axes = s.axes := by unfold State.setContact; simp
@[simp] theorem State.setContact_claims (c : Contact) (x : ContactRec) (s : State) : (State.setContact c x s).claims = s.claims := by unfold State.setContact; simp
@[simp] theorem State.setContact_gov (c : Contact) (x : ContactRec) (s : State) : (State.setContact c x s).gov = s.gov := by unfold State.setContact; simp
@[simp] theorem State.setContact_plans (c : Contact) (x : ContactRec) (s : State) : (State.setContact c x s).plans = s.plans := by unfold State.setContact; simp
@[simp] theorem State.setContact_profiles (c : Contact) (x : ContactRec) (s : State) : (State.setContact c x s).profiles = s.profiles := by unfold State.setContact; simp
@[simp] theorem State.setContact_lastProfile (c : Contact) (x : ContactRec) (s : State) : (State.setContact c x s).lastProfile = s.lastProfile := by unfold State.setContact; simp
@[simp] theorem State.setContact_store (c : Contact) (x : ContactRec) (s : State) : (State.setContact c x s).store = s.store := by unfold State.setContact; simp
@[simp] theorem State.setContact_cells (c : Contact) (x : ContactRec) (s : State) : (State.setContact c x s).cells = s.cells := by unfold State.setContact; simp
@[simp] theorem State.setContact_massage (c : Contact) (x : ContactRec) (s : State) : (State.setContact c x s).massage = s.massage := by unfold State.setContact; simp
@[simp] theorem State.setContact_zones (c : Contact) (x : ContactRec) (s : State) : (State.setContact c x s).zones = s.zones := by unfold State.setContact; simp
@[simp] theorem State.setContact_brace (c : Contact) (x : ContactRec) (s : State) : (State.setContact c x s).brace = s.brace := by unfold State.setContact; simp
@[simp] theorem State.setContact_power (c : Contact) (x : ContactRec) (s : State) : (State.setContact c x s).power = s.power := by unfold State.setContact; simp
@[simp] theorem State.setContact_sense (c : Contact) (x : ContactRec) (s : State) : (State.setContact c x s).sense = s.sense := by unfold State.setContact; simp
@[simp] theorem State.setContact_agenda (c : Contact) (x : ContactRec) (s : State) : (State.setContact c x s).agenda = s.agenda := by unfold State.setContact; simp
@[simp] theorem State.setContact_pending (c : Contact) (x : ContactRec) (s : State) : (State.setContact c x s).pending = s.pending := by unfold State.setContact; simp

/-! ### `State.setOpposed` -/

@[simp] theorem State.setOpposed_axes (a : Fin 8) (b : Bool) (s : State) : (State.setOpposed a b s).axes = s.axes := by unfold State.setOpposed; simp
@[simp] theorem State.setOpposed_claims (a : Fin 8) (b : Bool) (s : State) : (State.setOpposed a b s).claims = s.claims := by unfold State.setOpposed; simp
@[simp] theorem State.setOpposed_gov (a : Fin 8) (b : Bool) (s : State) : (State.setOpposed a b s).gov = s.gov := by unfold State.setOpposed; simp
@[simp] theorem State.setOpposed_plans (a : Fin 8) (b : Bool) (s : State) : (State.setOpposed a b s).plans = s.plans := by unfold State.setOpposed; simp
@[simp] theorem State.setOpposed_profiles (a : Fin 8) (b : Bool) (s : State) : (State.setOpposed a b s).profiles = s.profiles := by unfold State.setOpposed; simp
@[simp] theorem State.setOpposed_lastProfile (a : Fin 8) (b : Bool) (s : State) : (State.setOpposed a b s).lastProfile = s.lastProfile := by unfold State.setOpposed; simp
@[simp] theorem State.setOpposed_store (a : Fin 8) (b : Bool) (s : State) : (State.setOpposed a b s).store = s.store := by unfold State.setOpposed; simp
@[simp] theorem State.setOpposed_cells (a : Fin 8) (b : Bool) (s : State) : (State.setOpposed a b s).cells = s.cells := by unfold State.setOpposed; simp
@[simp] theorem State.setOpposed_massage (a : Fin 8) (b : Bool) (s : State) : (State.setOpposed a b s).massage = s.massage := by unfold State.setOpposed; simp
@[simp] theorem State.setOpposed_zones (a : Fin 8) (b : Bool) (s : State) : (State.setOpposed a b s).zones = s.zones := by unfold State.setOpposed; simp
@[simp] theorem State.setOpposed_brace (a : Fin 8) (b : Bool) (s : State) : (State.setOpposed a b s).brace = s.brace := by unfold State.setOpposed; simp
@[simp] theorem State.setOpposed_power (a : Fin 8) (b : Bool) (s : State) : (State.setOpposed a b s).power = s.power := by unfold State.setOpposed; simp
@[simp] theorem State.setOpposed_sense (a : Fin 8) (b : Bool) (s : State) : (State.setOpposed a b s).sense = s.sense := by unfold State.setOpposed; simp
@[simp] theorem State.setOpposed_agenda (a : Fin 8) (b : Bool) (s : State) : (State.setOpposed a b s).agenda = s.agenda := by unfold State.setOpposed; simp
@[simp] theorem State.setOpposed_pending (a : Fin 8) (b : Bool) (s : State) : (State.setOpposed a b s).pending = s.pending := by unfold State.setOpposed; simp

/-! ### `State.makeInert` -/

@[simp] theorem State.makeInert_axes (c : Contact) (s : State) : (State.makeInert c s).axes = s.axes := by unfold State.makeInert; simp
@[simp] theorem State.makeInert_claims (c : Contact) (s : State) : (State.makeInert c s).claims = s.claims := by unfold State.makeInert; simp
@[simp] theorem State.makeInert_gov (c : Contact) (s : State) : (State.makeInert c s).gov = s.gov := by unfold State.makeInert; simp
@[simp] theorem State.makeInert_plans (c : Contact) (s : State) : (State.makeInert c s).plans = s.plans := by unfold State.makeInert; simp
@[simp] theorem State.makeInert_profiles (c : Contact) (s : State) : (State.makeInert c s).profiles = s.profiles := by unfold State.makeInert; simp
@[simp] theorem State.makeInert_lastProfile (c : Contact) (s : State) : (State.makeInert c s).lastProfile = s.lastProfile := by unfold State.makeInert; simp
@[simp] theorem State.makeInert_store (c : Contact) (s : State) : (State.makeInert c s).store = s.store := by unfold State.makeInert; simp
@[simp] theorem State.makeInert_cells (c : Contact) (s : State) : (State.makeInert c s).cells = s.cells := by unfold State.makeInert; simp
@[simp] theorem State.makeInert_massage (c : Contact) (s : State) : (State.makeInert c s).massage = s.massage := by unfold State.makeInert; simp
@[simp] theorem State.makeInert_zones (c : Contact) (s : State) : (State.makeInert c s).zones = s.zones := by unfold State.makeInert; simp
@[simp] theorem State.makeInert_brace (c : Contact) (s : State) : (State.makeInert c s).brace = s.brace := by unfold State.makeInert; simp
@[simp] theorem State.makeInert_power (c : Contact) (s : State) : (State.makeInert c s).power = s.power := by unfold State.makeInert; simp
@[simp] theorem State.makeInert_sense (c : Contact) (s : State) : (State.makeInert c s).sense = s.sense := by unfold State.makeInert; simp
@[simp] theorem State.makeInert_agenda (c : Contact) (s : State) : (State.makeInert c s).agenda = s.agenda := by unfold State.makeInert; simp
@[simp] theorem State.makeInert_pending (c : Contact) (s : State) : (State.makeInert c s).pending = s.pending := by unfold State.makeInert; simp

/-! ### `State.setMemory` -/

@[simp] theorem State.setMemory_axes (m : MemoryAction) (s : State) : (State.setMemory m s).axes = s.axes := by unfold State.setMemory; simp
@[simp] theorem State.setMemory_claims (m : MemoryAction) (s : State) : (State.setMemory m s).claims = s.claims := by unfold State.setMemory; simp
@[simp] theorem State.setMemory_gov (m : MemoryAction) (s : State) : (State.setMemory m s).gov = s.gov := by unfold State.setMemory; simp
@[simp] theorem State.setMemory_plans (m : MemoryAction) (s : State) : (State.setMemory m s).plans = s.plans := by unfold State.setMemory; simp
@[simp] theorem State.setMemory_profiles (m : MemoryAction) (s : State) : (State.setMemory m s).profiles = s.profiles := by unfold State.setMemory; simp
@[simp] theorem State.setMemory_lastProfile (m : MemoryAction) (s : State) : (State.setMemory m s).lastProfile = s.lastProfile := by unfold State.setMemory; simp
@[simp] theorem State.setMemory_store (m : MemoryAction) (s : State) : (State.setMemory m s).store = s.store := by unfold State.setMemory; simp
@[simp] theorem State.setMemory_cells (m : MemoryAction) (s : State) : (State.setMemory m s).cells = s.cells := by unfold State.setMemory; simp
@[simp] theorem State.setMemory_massage (m : MemoryAction) (s : State) : (State.setMemory m s).massage = s.massage := by unfold State.setMemory; simp
@[simp] theorem State.setMemory_zones (m : MemoryAction) (s : State) : (State.setMemory m s).zones = s.zones := by unfold State.setMemory; simp
@[simp] theorem State.setMemory_brace (m : MemoryAction) (s : State) : (State.setMemory m s).brace = s.brace := by unfold State.setMemory; simp
@[simp] theorem State.setMemory_power (m : MemoryAction) (s : State) : (State.setMemory m s).power = s.power := by unfold State.setMemory; simp
@[simp] theorem State.setMemory_sense (m : MemoryAction) (s : State) : (State.setMemory m s).sense = s.sense := by unfold State.setMemory; simp
@[simp] theorem State.setMemory_agenda (m : MemoryAction) (s : State) : (State.setMemory m s).agenda = s.agenda := by unfold State.setMemory; simp
@[simp] theorem State.setMemory_pending (m : MemoryAction) (s : State) : (State.setMemory m s).pending = s.pending := by unfold State.setMemory; simp

/-! ### `State.closeWindow` -/

@[simp] theorem State.closeWindow_axes (s : State) : (State.closeWindow s).axes = s.axes := by unfold State.closeWindow; simp
@[simp] theorem State.closeWindow_claims (s : State) : (State.closeWindow s).claims = s.claims := by unfold State.closeWindow; simp
@[simp] theorem State.closeWindow_gov (s : State) : (State.closeWindow s).gov = s.gov := by unfold State.closeWindow; simp
@[simp] theorem State.closeWindow_plans (s : State) : (State.closeWindow s).plans = s.plans := by unfold State.closeWindow; simp
@[simp] theorem State.closeWindow_profiles (s : State) : (State.closeWindow s).profiles = s.profiles := by unfold State.closeWindow; simp
@[simp] theorem State.closeWindow_lastProfile (s : State) : (State.closeWindow s).lastProfile = s.lastProfile := by unfold State.closeWindow; simp
@[simp] theorem State.closeWindow_store (s : State) : (State.closeWindow s).store = s.store := by unfold State.closeWindow; simp
@[simp] theorem State.closeWindow_cells (s : State) : (State.closeWindow s).cells = s.cells := by unfold State.closeWindow; simp
@[simp] theorem State.closeWindow_massage (s : State) : (State.closeWindow s).massage = s.massage := by unfold State.closeWindow; simp
@[simp] theorem State.closeWindow_zones (s : State) : (State.closeWindow s).zones = s.zones := by unfold State.closeWindow; simp
@[simp] theorem State.closeWindow_brace (s : State) : (State.closeWindow s).brace = s.brace := by unfold State.closeWindow; simp
@[simp] theorem State.closeWindow_power (s : State) : (State.closeWindow s).power = s.power := by unfold State.closeWindow; simp
@[simp] theorem State.closeWindow_sense (s : State) : (State.closeWindow s).sense = s.sense := by unfold State.closeWindow; simp
@[simp] theorem State.closeWindow_agenda (s : State) : (State.closeWindow s).agenda = s.agenda := by unfold State.closeWindow; simp
@[simp] theorem State.closeWindow_pending (s : State) : (State.closeWindow s).pending = s.pending := by unfold State.closeWindow; simp

/-! ### `State.setHostSilent` -/

@[simp] theorem State.setHostSilent_axes (b : Bool) (s : State) : (State.setHostSilent b s).axes = s.axes := by unfold State.setHostSilent; simp
@[simp] theorem State.setHostSilent_claims (b : Bool) (s : State) : (State.setHostSilent b s).claims = s.claims := by unfold State.setHostSilent; simp
@[simp] theorem State.setHostSilent_gov (b : Bool) (s : State) : (State.setHostSilent b s).gov = s.gov := by unfold State.setHostSilent; simp
@[simp] theorem State.setHostSilent_plans (b : Bool) (s : State) : (State.setHostSilent b s).plans = s.plans := by unfold State.setHostSilent; simp
@[simp] theorem State.setHostSilent_profiles (b : Bool) (s : State) : (State.setHostSilent b s).profiles = s.profiles := by unfold State.setHostSilent; simp
@[simp] theorem State.setHostSilent_lastProfile (b : Bool) (s : State) : (State.setHostSilent b s).lastProfile = s.lastProfile := by unfold State.setHostSilent; simp
@[simp] theorem State.setHostSilent_store (b : Bool) (s : State) : (State.setHostSilent b s).store = s.store := by unfold State.setHostSilent; simp
@[simp] theorem State.setHostSilent_switches (b : Bool) (s : State) : (State.setHostSilent b s).switches = s.switches := by unfold State.setHostSilent; simp
@[simp] theorem State.setHostSilent_cells (b : Bool) (s : State) : (State.setHostSilent b s).cells = s.cells := by unfold State.setHostSilent; simp
@[simp] theorem State.setHostSilent_massage (b : Bool) (s : State) : (State.setHostSilent b s).massage = s.massage := by unfold State.setHostSilent; simp
@[simp] theorem State.setHostSilent_zones (b : Bool) (s : State) : (State.setHostSilent b s).zones = s.zones := by unfold State.setHostSilent; simp
@[simp] theorem State.setHostSilent_brace (b : Bool) (s : State) : (State.setHostSilent b s).brace = s.brace := by unfold State.setHostSilent; simp
@[simp] theorem State.setHostSilent_power (b : Bool) (s : State) : (State.setHostSilent b s).power = s.power := by unfold State.setHostSilent; simp
@[simp] theorem State.setHostSilent_sense (b : Bool) (s : State) : (State.setHostSilent b s).sense = s.sense := by unfold State.setHostSilent; simp
@[simp] theorem State.setHostSilent_agenda (b : Bool) (s : State) : (State.setHostSilent b s).agenda = s.agenda := by unfold State.setHostSilent; simp
@[simp] theorem State.setHostSilent_pending (b : Bool) (s : State) : (State.setHostSilent b s).pending = s.pending := by unfold State.setHostSilent; simp

/-! ### `State.startSilence` -/

@[simp] theorem State.startSilence_axes (s : State) : (State.startSilence s).axes = s.axes := by unfold State.startSilence; split <;> rfl
@[simp] theorem State.startSilence_claims (s : State) : (State.startSilence s).claims = s.claims := by unfold State.startSilence; split <;> rfl
@[simp] theorem State.startSilence_gov (s : State) : (State.startSilence s).gov = s.gov := by unfold State.startSilence; split <;> rfl
@[simp] theorem State.startSilence_plans (s : State) : (State.startSilence s).plans = s.plans := by unfold State.startSilence; split <;> rfl
@[simp] theorem State.startSilence_profiles (s : State) : (State.startSilence s).profiles = s.profiles := by unfold State.startSilence; split <;> rfl
@[simp] theorem State.startSilence_lastProfile (s : State) : (State.startSilence s).lastProfile = s.lastProfile := by unfold State.startSilence; split <;> rfl
@[simp] theorem State.startSilence_store (s : State) : (State.startSilence s).store = s.store := by unfold State.startSilence; split <;> rfl
@[simp] theorem State.startSilence_switches (s : State) : (State.startSilence s).switches = s.switches := by unfold State.startSilence; split <;> rfl
@[simp] theorem State.startSilence_cells (s : State) : (State.startSilence s).cells = s.cells := by unfold State.startSilence; split <;> rfl
@[simp] theorem State.startSilence_massage (s : State) : (State.startSilence s).massage = s.massage := by unfold State.startSilence; split <;> rfl
@[simp] theorem State.startSilence_zones (s : State) : (State.startSilence s).zones = s.zones := by unfold State.startSilence; split <;> rfl
@[simp] theorem State.startSilence_brace (s : State) : (State.startSilence s).brace = s.brace := by unfold State.startSilence; split <;> rfl
@[simp] theorem State.startSilence_power (s : State) : (State.startSilence s).power = s.power := by unfold State.startSilence; split <;> rfl
@[simp] theorem State.startSilence_sense (s : State) : (State.startSilence s).sense = s.sense := by unfold State.startSilence; split <;> rfl
@[simp] theorem State.startSilence_agenda (s : State) : (State.startSilence s).agenda = s.agenda := by unfold State.startSilence; split <;> rfl
@[simp] theorem State.startSilence_pending (s : State) : (State.startSilence s).pending = s.pending := by unfold State.startSilence; split <;> rfl

/-! ### `State.recomputeFrom` -/

@[simp] theorem State.recomputeFrom_axes (n : Nat) (s : State) : (State.recomputeFrom n s).axes = s.axes := by unfold State.recomputeFrom; simp
@[simp] theorem State.recomputeFrom_claims (n : Nat) (s : State) : (State.recomputeFrom n s).claims = s.claims := by unfold State.recomputeFrom; simp
@[simp] theorem State.recomputeFrom_gov (n : Nat) (s : State) : (State.recomputeFrom n s).gov = s.gov := by unfold State.recomputeFrom; simp
@[simp] theorem State.recomputeFrom_plans (n : Nat) (s : State) : (State.recomputeFrom n s).plans = s.plans := by unfold State.recomputeFrom; simp
@[simp] theorem State.recomputeFrom_profiles (n : Nat) (s : State) : (State.recomputeFrom n s).profiles = s.profiles := by unfold State.recomputeFrom; simp
@[simp] theorem State.recomputeFrom_lastProfile (n : Nat) (s : State) : (State.recomputeFrom n s).lastProfile = s.lastProfile := by unfold State.recomputeFrom; simp
@[simp] theorem State.recomputeFrom_store (n : Nat) (s : State) : (State.recomputeFrom n s).store = s.store := by unfold State.recomputeFrom; simp
@[simp] theorem State.recomputeFrom_switches (n : Nat) (s : State) : (State.recomputeFrom n s).switches = s.switches := by unfold State.recomputeFrom; simp
@[simp] theorem State.recomputeFrom_cells (n : Nat) (s : State) : (State.recomputeFrom n s).cells = s.cells := by unfold State.recomputeFrom; simp
@[simp] theorem State.recomputeFrom_massage (n : Nat) (s : State) : (State.recomputeFrom n s).massage = s.massage := by unfold State.recomputeFrom; simp
@[simp] theorem State.recomputeFrom_brace (n : Nat) (s : State) : (State.recomputeFrom n s).brace = s.brace := by unfold State.recomputeFrom; simp
@[simp] theorem State.recomputeFrom_power (n : Nat) (s : State) : (State.recomputeFrom n s).power = s.power := by unfold State.recomputeFrom; simp
@[simp] theorem State.recomputeFrom_sense (n : Nat) (s : State) : (State.recomputeFrom n s).sense = s.sense := by unfold State.recomputeFrom; simp
@[simp] theorem State.recomputeFrom_agenda (n : Nat) (s : State) : (State.recomputeFrom n s).agenda = s.agenda := by unfold State.recomputeFrom; simp
@[simp] theorem State.recomputeFrom_pending (n : Nat) (s : State) : (State.recomputeFrom n s).pending = s.pending := by unfold State.recomputeFrom; simp

/-! ### `State.recompute` -/

@[simp] theorem State.recompute_axes (s : State) : (State.recompute s).axes = s.axes := by unfold State.recompute; simp
@[simp] theorem State.recompute_claims (s : State) : (State.recompute s).claims = s.claims := by unfold State.recompute; simp
@[simp] theorem State.recompute_gov (s : State) : (State.recompute s).gov = s.gov := by unfold State.recompute; simp
@[simp] theorem State.recompute_plans (s : State) : (State.recompute s).plans = s.plans := by unfold State.recompute; simp
@[simp] theorem State.recompute_profiles (s : State) : (State.recompute s).profiles = s.profiles := by unfold State.recompute; simp
@[simp] theorem State.recompute_lastProfile (s : State) : (State.recompute s).lastProfile = s.lastProfile := by unfold State.recompute; simp
@[simp] theorem State.recompute_store (s : State) : (State.recompute s).store = s.store := by unfold State.recompute; simp
@[simp] theorem State.recompute_switches (s : State) : (State.recompute s).switches = s.switches := by unfold State.recompute; simp
@[simp] theorem State.recompute_cells (s : State) : (State.recompute s).cells = s.cells := by unfold State.recompute; simp
@[simp] theorem State.recompute_massage (s : State) : (State.recompute s).massage = s.massage := by unfold State.recompute; simp
@[simp] theorem State.recompute_brace (s : State) : (State.recompute s).brace = s.brace := by unfold State.recompute; simp
@[simp] theorem State.recompute_power (s : State) : (State.recompute s).power = s.power := by unfold State.recompute; simp
@[simp] theorem State.recompute_sense (s : State) : (State.recompute s).sense = s.sense := by unfold State.recompute; simp
@[simp] theorem State.recompute_agenda (s : State) : (State.recompute s).agenda = s.agenda := by unfold State.recompute; simp
@[simp] theorem State.recompute_pending (s : State) : (State.recompute s).pending = s.pending := by unfold State.recompute; simp

/-! ### `State.addParkingWrite` -/

@[simp] theorem State.addParkingWrite_axes (r : ParkingRecord) (s : State) : (State.addParkingWrite r s).axes = s.axes := by unfold State.addParkingWrite State.beginWrite; simp only; (repeat' split) <;> rfl
@[simp] theorem State.addParkingWrite_claims (r : ParkingRecord) (s : State) : (State.addParkingWrite r s).claims = s.claims := by unfold State.addParkingWrite State.beginWrite; simp only; (repeat' split) <;> rfl
@[simp] theorem State.addParkingWrite_gov (r : ParkingRecord) (s : State) : (State.addParkingWrite r s).gov = s.gov := by unfold State.addParkingWrite State.beginWrite; simp only; (repeat' split) <;> rfl
@[simp] theorem State.addParkingWrite_plans (r : ParkingRecord) (s : State) : (State.addParkingWrite r s).plans = s.plans := by unfold State.addParkingWrite State.beginWrite; simp only; (repeat' split) <;> rfl
@[simp] theorem State.addParkingWrite_profiles (r : ParkingRecord) (s : State) : (State.addParkingWrite r s).profiles = s.profiles := by unfold State.addParkingWrite State.beginWrite; simp only; (repeat' split) <;> rfl
@[simp] theorem State.addParkingWrite_lastProfile (r : ParkingRecord) (s : State) : (State.addParkingWrite r s).lastProfile = s.lastProfile := by unfold State.addParkingWrite State.beginWrite; simp only; (repeat' split) <;> rfl
@[simp] theorem State.addParkingWrite_switches (r : ParkingRecord) (s : State) : (State.addParkingWrite r s).switches = s.switches := by unfold State.addParkingWrite State.beginWrite; simp only; (repeat' split) <;> rfl
@[simp] theorem State.addParkingWrite_cells (r : ParkingRecord) (s : State) : (State.addParkingWrite r s).cells = s.cells := by unfold State.addParkingWrite State.beginWrite; simp only; (repeat' split) <;> rfl
@[simp] theorem State.addParkingWrite_massage (r : ParkingRecord) (s : State) : (State.addParkingWrite r s).massage = s.massage := by unfold State.addParkingWrite State.beginWrite; simp only; (repeat' split) <;> rfl
@[simp] theorem State.addParkingWrite_zones (r : ParkingRecord) (s : State) : (State.addParkingWrite r s).zones = s.zones := by unfold State.addParkingWrite State.beginWrite; simp only; (repeat' split) <;> rfl
@[simp] theorem State.addParkingWrite_brace (r : ParkingRecord) (s : State) : (State.addParkingWrite r s).brace = s.brace := by unfold State.addParkingWrite State.beginWrite; simp only; (repeat' split) <;> rfl
@[simp] theorem State.addParkingWrite_link (r : ParkingRecord) (s : State) : (State.addParkingWrite r s).link = s.link := by unfold State.addParkingWrite State.beginWrite; simp only; (repeat' split) <;> rfl
@[simp] theorem State.addParkingWrite_sense (r : ParkingRecord) (s : State) : (State.addParkingWrite r s).sense = s.sense := by unfold State.addParkingWrite State.beginWrite; simp only; (repeat' split) <;> rfl
@[simp] theorem State.addParkingWrite_agenda (r : ParkingRecord) (s : State) : (State.addParkingWrite r s).agenda = s.agenda := by unfold State.addParkingWrite State.beginWrite; simp only; (repeat' split) <;> rfl
@[simp] theorem State.addParkingWrite_pending (r : ParkingRecord) (s : State) : (State.addParkingWrite r s).pending = s.pending := by unfold State.addParkingWrite State.beginWrite; simp only; (repeat' split) <;> rfl

/-! ### `State.addProfileWrite` -/

@[simp] theorem State.addProfileWrite_axes (p : Fin 6) (s : State) : (State.addProfileWrite p s).axes = s.axes := by unfold State.addProfileWrite State.beginWrite; simp only; (repeat' split) <;> rfl
@[simp] theorem State.addProfileWrite_claims (p : Fin 6) (s : State) : (State.addProfileWrite p s).claims = s.claims := by unfold State.addProfileWrite State.beginWrite; simp only; (repeat' split) <;> rfl
@[simp] theorem State.addProfileWrite_gov (p : Fin 6) (s : State) : (State.addProfileWrite p s).gov = s.gov := by unfold State.addProfileWrite State.beginWrite; simp only; (repeat' split) <;> rfl
@[simp] theorem State.addProfileWrite_plans (p : Fin 6) (s : State) : (State.addProfileWrite p s).plans = s.plans := by unfold State.addProfileWrite State.beginWrite; simp only; (repeat' split) <;> rfl
@[simp] theorem State.addProfileWrite_profiles (p : Fin 6) (s : State) : (State.addProfileWrite p s).profiles = s.profiles := by unfold State.addProfileWrite State.beginWrite; simp only; (repeat' split) <;> rfl
@[simp] theorem State.addProfileWrite_lastProfile (p : Fin 6) (s : State) : (State.addProfileWrite p s).lastProfile = s.lastProfile := by unfold State.addProfileWrite State.beginWrite; simp only; (repeat' split) <;> rfl
@[simp] theorem State.addProfileWrite_switches (p : Fin 6) (s : State) : (State.addProfileWrite p s).switches = s.switches := by unfold State.addProfileWrite State.beginWrite; simp only; (repeat' split) <;> rfl
@[simp] theorem State.addProfileWrite_cells (p : Fin 6) (s : State) : (State.addProfileWrite p s).cells = s.cells := by unfold State.addProfileWrite State.beginWrite; simp only; (repeat' split) <;> rfl
@[simp] theorem State.addProfileWrite_massage (p : Fin 6) (s : State) : (State.addProfileWrite p s).massage = s.massage := by unfold State.addProfileWrite State.beginWrite; simp only; (repeat' split) <;> rfl
@[simp] theorem State.addProfileWrite_zones (p : Fin 6) (s : State) : (State.addProfileWrite p s).zones = s.zones := by unfold State.addProfileWrite State.beginWrite; simp only; (repeat' split) <;> rfl
@[simp] theorem State.addProfileWrite_brace (p : Fin 6) (s : State) : (State.addProfileWrite p s).brace = s.brace := by unfold State.addProfileWrite State.beginWrite; simp only; (repeat' split) <;> rfl
@[simp] theorem State.addProfileWrite_link (p : Fin 6) (s : State) : (State.addProfileWrite p s).link = s.link := by unfold State.addProfileWrite State.beginWrite; simp only; (repeat' split) <;> rfl
@[simp] theorem State.addProfileWrite_sense (p : Fin 6) (s : State) : (State.addProfileWrite p s).sense = s.sense := by unfold State.addProfileWrite State.beginWrite; simp only; (repeat' split) <;> rfl
@[simp] theorem State.addProfileWrite_agenda (p : Fin 6) (s : State) : (State.addProfileWrite p s).agenda = s.agenda := by unfold State.addProfileWrite State.beginWrite; simp only; (repeat' split) <;> rfl
@[simp] theorem State.addProfileWrite_pending (p : Fin 6) (s : State) : (State.addProfileWrite p s).pending = s.pending := by unfold State.addProfileWrite State.beginWrite; simp only; (repeat' split) <;> rfl

/-! ### `State.invalidateParking` -/

@[simp] theorem State.invalidateParking_axes (s : State) : (State.invalidateParking s).axes = s.axes := by unfold State.invalidateParking; split <;> simp
@[simp] theorem State.invalidateParking_claims (s : State) : (State.invalidateParking s).claims = s.claims := by unfold State.invalidateParking; split <;> simp
@[simp] theorem State.invalidateParking_gov (s : State) : (State.invalidateParking s).gov = s.gov := by unfold State.invalidateParking; split <;> simp
@[simp] theorem State.invalidateParking_plans (s : State) : (State.invalidateParking s).plans = s.plans := by unfold State.invalidateParking; split <;> simp
@[simp] theorem State.invalidateParking_profiles (s : State) : (State.invalidateParking s).profiles = s.profiles := by unfold State.invalidateParking; split <;> simp
@[simp] theorem State.invalidateParking_lastProfile (s : State) : (State.invalidateParking s).lastProfile = s.lastProfile := by unfold State.invalidateParking; split <;> simp
@[simp] theorem State.invalidateParking_switches (s : State) : (State.invalidateParking s).switches = s.switches := by unfold State.invalidateParking; split <;> simp
@[simp] theorem State.invalidateParking_cells (s : State) : (State.invalidateParking s).cells = s.cells := by unfold State.invalidateParking; split <;> simp
@[simp] theorem State.invalidateParking_massage (s : State) : (State.invalidateParking s).massage = s.massage := by unfold State.invalidateParking; split <;> simp
@[simp] theorem State.invalidateParking_zones (s : State) : (State.invalidateParking s).zones = s.zones := by unfold State.invalidateParking; split <;> simp
@[simp] theorem State.invalidateParking_brace (s : State) : (State.invalidateParking s).brace = s.brace := by unfold State.invalidateParking; split <;> simp
@[simp] theorem State.invalidateParking_link (s : State) : (State.invalidateParking s).link = s.link := by unfold State.invalidateParking; split <;> simp
@[simp] theorem State.invalidateParking_sense (s : State) : (State.invalidateParking s).sense = s.sense := by unfold State.invalidateParking; split <;> simp
@[simp] theorem State.invalidateParking_agenda (s : State) : (State.invalidateParking s).agenda = s.agenda := by unfold State.invalidateParking; split <;> simp
@[simp] theorem State.invalidateParking_pending (s : State) : (State.invalidateParking s).pending = s.pending := by unfold State.invalidateParking; split <;> simp

/-! ### `State.transmit` -/

@[simp] theorem State.transmit_axes (s : State) : (State.transmit s).axes = s.axes := by unfold State.transmit; (repeat' split) <;> rfl
@[simp] theorem State.transmit_claims (s : State) : (State.transmit s).claims = s.claims := by unfold State.transmit; (repeat' split) <;> rfl
@[simp] theorem State.transmit_gov (s : State) : (State.transmit s).gov = s.gov := by unfold State.transmit; (repeat' split) <;> rfl
@[simp] theorem State.transmit_plans (s : State) : (State.transmit s).plans = s.plans := by unfold State.transmit; (repeat' split) <;> rfl
@[simp] theorem State.transmit_profiles (s : State) : (State.transmit s).profiles = s.profiles := by unfold State.transmit; (repeat' split) <;> rfl
@[simp] theorem State.transmit_lastProfile (s : State) : (State.transmit s).lastProfile = s.lastProfile := by unfold State.transmit; (repeat' split) <;> rfl
@[simp] theorem State.transmit_store (s : State) : (State.transmit s).store = s.store := by unfold State.transmit; (repeat' split) <;> rfl
@[simp] theorem State.transmit_switches (s : State) : (State.transmit s).switches = s.switches := by unfold State.transmit; (repeat' split) <;> rfl
@[simp] theorem State.transmit_cells (s : State) : (State.transmit s).cells = s.cells := by unfold State.transmit; (repeat' split) <;> rfl
@[simp] theorem State.transmit_massage (s : State) : (State.transmit s).massage = s.massage := by unfold State.transmit; (repeat' split) <;> rfl
@[simp] theorem State.transmit_zones (s : State) : (State.transmit s).zones = s.zones := by unfold State.transmit; (repeat' split) <;> rfl
@[simp] theorem State.transmit_brace (s : State) : (State.transmit s).brace = s.brace := by unfold State.transmit; (repeat' split) <;> rfl
@[simp] theorem State.transmit_power (s : State) : (State.transmit s).power = s.power := by unfold State.transmit; (repeat' split) <;> rfl
@[simp] theorem State.transmit_sense (s : State) : (State.transmit s).sense = s.sense := by unfold State.transmit; (repeat' split) <;> rfl
@[simp] theorem State.transmit_agenda (s : State) : (State.transmit s).agenda = s.agenda := by unfold State.transmit; (repeat' split) <;> rfl
@[simp] theorem State.transmit_pending (s : State) : (State.transmit s).pending = s.pending := by unfold State.transmit; (repeat' split) <;> rfl

end Sys2Proof.Machine
end

