-- ==== Sys2Proof/Laws/Agenda.lean ====
section
/-! SUPPORT. The end of a step: how requests are carried out, and what power control and the transmitter leave alone. -/

namespace Sys2Proof.Machine

/-! ### Carrying out requests -/

theorem drain_done (n : Nat) (s : State) (h : s.agenda = []) : drain n s = s := by
  cases n <;> simp [drain, h]

theorem drain_request (n : Nat) (s : State) (w : Work) (ws : List Work) (h : s.agenda = w :: ws) :
    drain (n + 1) s = drain n (doWork w { s with agenda := ws }) := by
  simp [drain, h]

/-- What every request keeps, and does not read in the agenda, the carrying out of any number of them keeps. -/
theorem drain_keeps (P : State → Prop) (agenda_free : ∀ s ws, P s → P { s with agenda := ws })
    (request : ∀ w s, P s → P (doWork w s)) (n : Nat) (s : State) (h : P s) : P (drain n s) := by
  induction n generalizing s with
  | zero => simpa [drain] using h
  | succ n ih =>
    unfold drain
    split
    · exact h
    · exact ih _ (request _ _ (agenda_free _ _ h))

/-! ### Power control and the transmitter -/

theorem powerCheck_awake (s : State) (h : s.power.state ≠ .shuttingDown) : s.powerCheck = s := by
  simp [State.powerCheck, h]

/-- The transmitter changes only what is being sent, the replies owed and the pending notices. -/
theorem transmit_carriesOn (s : State) : s.link.carriesOn s.transmit.link := by
  unfold State.transmit Link.carriesOn
  (repeat' split) <;> rfl

theorem transmit_eq (s : State) : s.transmit = { s with link := s.transmit.link } := by
  unfold State.transmit
  (repeat' split) <;> rfl

/-- A reply's data go out as they were given, unless they are a STATUS content longer than one frame holds. -/
theorem dataSent_given (s : State) (c : Command) (data : ReplyData)
    (h : ∀ taken, data = .content taken → c.code = 0x02 → (Config.contentBytes taken).length ≤ replyPart) : s.dataSent c data = data := by
  unfold State.dataSent
  (repeat' split) <;> first | rfl | (rename_i hc; exact absurd (h _ rfl hc.1) (Nat.not_le.mpr hc.2))

/-- A run's content is that of the moment its first frame begins (R178). -/
theorem dataSent_run (s : State) (c : Command) (taken : Content) (sel : Selector) (hc : c.code = 0x02)
    (hr : readSelector c.payload = some sel) (hl : replyPart < (Config.contentBytes taken).length) :
    s.dataSent c (.content taken) = .content (s.statusContent sel) := by
  simp [State.dataSent, hc, hr, hl]

/-! ### The end of a step -/

/-- Outside SHUTTING_DOWN, a step whose act makes no request ends in the state the act left, the transmitter's choice apart. -/
theorem finish_quiet (s : State) (h : s.agenda = []) (hp : s.power.state ≠ .shuttingDown) : s.finish = s.transmit := by
  unfold State.finish
  rw [drain_done _ _ h, powerCheck_awake _ hp]
  have hs : s.transmit.agenda = [] := by simp [h]
  rw [← hs]

theorem finish_agenda (s : State) : s.finish.agenda = [] := rfl

/-- The same, as an answer with the link's changes named. -/
theorem answer_quiet (s : State) (h : s.agenda = []) (hp : s.power.state ≠ .shuttingDown) :
    ∃ l, answer s = .next { s with link := l } ∧ s.link.carriesOn l :=
  ⟨s.transmit.link, by rw [answer, finish_quiet s h hp]; exact congrArg _ (transmit_eq s), transmit_carriesOn s⟩

theorem carriesOn_refl (l : Link) : l.carriesOn l := rfl

theorem carriesOn_trans {a b c : Link} (h : a.carriesOn b) (k : b.carriesOn c) : a.carriesOn c := by
  unfold Link.carriesOn at *
  rw [k, h]

theorem carriesOn_slot {a b : Link} (h : a.carriesOn b) : b.slot = a.slot := by
  rw [show b = _ from h]

/-- A notice posted only adds to the pending notices. -/
theorem post_carriesOn (k : NoticeKind) (s : State) : s.link.carriesOn (s.post k).link := rfl

theorem postIf_carriesOn (b : Bool) (k : NoticeKind) (s : State) : s.link.carriesOn (State.postIf b k s).link := by
  unfold State.postIf
  split
  · exact post_carriesOn k s
  · exact carriesOn_refl _

/-- An act under an event of a part that runs: the answer is the act's, carried through. -/
theorem event_live (f : State → State) (s : State) (h : s.live = true) : event f s = answer (f s) := by
  simp [event, h]

theorem upEvent_up (f : State → State) (s : State) (h : s.up = true) : upEvent f s = answer (f s) := by
  simp [upEvent, h]

theorem atEase_live {s : State} (h : s.atEase) : s.live = true := by
  obtain ⟨_, hp, hh⟩ := h
  simp [State.live, hp, hh]

theorem atEase_up {s : State} (h : s.atEase) : s.up = true := by
  obtain ⟨_, hp, hh⟩ := h
  simp [State.up, hp, hh]

end Sys2Proof.Machine
end

