-- ==== Sys2Proof/Laws/Requests.lean ====
section
/-! SUPPORT. What the requests that blocks make of one another inside a step can never touch: one lemma for each operation that a
request uses, and one for a request. -/

namespace Sys2Proof.Machine

/-- The part of the state that no request touches: positions and configuration, supply state, the step table and the vehicle state,
the retained areas, contact levels, pressures, pattern slots, temperatures, the brace line's level, the link but for its pending
notices, and what power control keeps of resets and wakes. -/
structure Fixed where
  axes : Vector (Nat × AxisConfig) 8
  gov : Nat × Nat × Vector Nat 4 × SupplyState
  plans : Vector (Option Descriptor) 32 × Vehicle
  areas : Vector (Area ProfileContent) 6 × Area ParkingRecord
  levels : Vector Bool 20
  cells : Vector Nat 12
  massage : Vector Pattern 8 × Vector Nat 5 × Nat
  zones : Vector (Option Int × Nat) 4
  brace : Nat × Nat × Nat × AckMode × Bool
  link : Link
  power : Bool × ResetCause × AwakeCause × Bool × Nat × Option WakeSource × Bool
  sense : Sense
  pending : List Instr

/-- That part of a state. -/
def State.fixed (s : State) : Fixed where
  axes := s.axes.map fun x => (x.position, x.cfg)
  gov := (s.gov.limit, s.gov.pumpRated, s.gov.zoneRated, s.gov.supply)
  plans := (s.plans.table, s.plans.vehicle)
  areas := (s.store.profileAreas, s.store.parkingArea)
  levels := s.switches.contacts.map (·.pressed)
  cells := s.cells.cells.map (·.pressure)
  massage := (s.massage.patterns, s.massage.pressures, s.massage.sessionLength)
  zones := s.zones.map fun z => (z.temperature, z.maxDuty)
  brace := (s.brace.deadline, s.brace.holdTime, s.brace.bolsterPressure, s.brace.ackMode, s.brace.lineActive)
  link := { s.link with pendingNotices := Vector.replicate 10 false }
  power := (s.power.held, s.power.resetCause, s.power.awakeCause, s.power.parkingWasValid, s.power.corruptSlots, s.power.wakeSource,
    s.power.activationHeld)
  sense := s.sense
  pending := s.pending

/-! ### Replacing whole records -/

/-- A table whose entry is replaced by one that looks the same is the same to look at. -/
theorem map_set_same {α β : Type} {n : Nat} (f : α → β) (v : Vector α n) (i : Nat) (h : i < n) (x : α) (hx : f x = f v[i]) :
    (v.set i x h).map f = v.map f := by
  ext j hj
  by_cases e : i = j
  · subst e
    simp [hx]
  · simp [e]

/-- The same of a change of one entry. -/
theorem map_upd_same {α β : Type} {n : Nat} (f : α → β) (v : Vector α n) (i : Fin n) (g : α → α) (h : ∀ x, f (g x) = f x) :
    (upd v i g).map f = v.map f := map_set_same f v i i.isLt _ (h _)

theorem fixed_setAxis (a : Fin 8) (x : Axis) (s : State) (hp : x.position = (s.axis a).position) (hc : x.cfg = (s.axis a).cfg) :
    (s.setAxis a x).fixed = s.fixed := by
  simp only [State.fixed, State.setAxis, Fixed.mk.injEq, and_true]
  exact map_set_same _ _ _ _ _ (Prod.ext hp hc)

theorem fixed_setCell (c : Fin 12) (x : Cell) (s : State) (h : x.pressure = (s.cell c).pressure) : (s.setCell c x).fixed = s.fixed := by
  simp only [State.fixed, State.setCell, Fixed.mk.injEq, and_true, true_and]
  exact map_set_same _ _ _ _ _ h

theorem fixed_setZone (z : Fin 4) (x : Zone) (s : State) (ht : x.temperature = (s.zone z).temperature)
    (hm : x.maxDuty = (s.zone z).maxDuty) : (s.setZone z x).fixed = s.fixed := by
  simp only [State.fixed, State.setZone, Fixed.mk.injEq, and_true, true_and]
  exact map_set_same _ _ _ _ _ (Prod.ext ht hm)

/-- Many operations of one kind, one after another. -/
theorem fixed_foldl {α : Type} (f : State → α → State) (h : ∀ t x, (f t x).fixed = t.fixed) (l : List α) (s : State) :
    (l.foldl f s).fixed = s.fixed := by
  induction l generalizing s with
  | nil => rfl
  | cons x l ih => rw [List.foldl_cons, ih, h]

/-! ### Notices and requests -/

@[simp] theorem fixed_post (k : NoticeKind) (s : State) : (s.post k).fixed = s.fixed := rfl
@[simp] theorem fixed_call (ws : List Work) (s : State) : (s.call ws).fixed = s.fixed := rfl
@[simp] theorem fixed_postIf (b : Bool) (k : NoticeKind) (s : State) : (State.postIf b k s).fixed = s.fixed := by
  unfold State.postIf
  split <;> rfl

@[simp] theorem fixed_agenda (s : State) (ws : List Work) : ({ s with agenda := ws } : State).fixed = s.fixed := rfl
@[simp] theorem fixed_claims (s : State) (c : Claims) : ({ s with claims := c } : State).fixed = s.fixed := rfl
@[simp] theorem fixed_lastProfile (s : State) (l : Option ProfileAction) : ({ s with lastProfile := l } : State).fixed = s.fixed := rfl
@[simp] theorem fixed_profiles (s : State) (p : Vector Profile 6) : ({ s with profiles := p } : State).fixed = s.fixed := rfl
@[simp] theorem fixed_pumpGrant (s : State) (u : Nat) : ({ s with gov.pumpGrant := u } : State).fixed = s.fixed := rfl
@[simp] theorem fixed_regime (s : State) (b : Bool) : ({ s with gov.regime := b } : State).fixed = s.fixed := rfl
@[simp] theorem fixed_queue (s : State) (q : List (Fin 12)) : ({ s with cells.queue := q } : State).fixed = s.fixed := rfl
@[simp] theorem fixed_pump (s : State) (p : PumpState) : ({ s with cells.pump := p } : State).fixed = s.fixed := rfl
@[simp] theorem fixed_standing (s : State) (p : ParkingStanding) : ({ s with power.standing := p } : State).fixed = s.fixed := rfl

/-! ### The supply governor -/

@[simp] theorem fixed_recomputeFrom (n : Nat) (s : State) : (s.recomputeFrom n).fixed = s.fixed := by
  unfold State.recomputeFrom
  simp only [fixed_postIf]
  simp only [State.fixed, Fixed.mk.injEq, and_true, true_and]
  apply Vector.ext
  intro j hj
  rw [Vector.getElem_map, Vector.getElem_map]
  rcases j with _ | _ | _ | _ | j <;> first | rfl | omega
@[simp] theorem fixed_recompute (s : State) : s.recompute.fixed = s.fixed := fixed_recomputeFrom _ s

@[simp] theorem fixed_syncValves (s : State) : s.syncValves.fixed = s.fixed := by
  simp only [State.fixed, State.syncValves, Fixed.mk.injEq, and_true, true_and]
  ext j hj
  simp only [Vector.getElem_map, Vector.getElem_ofFn]
  split <;> rfl
@[simp] theorem fixed_setPump (p : PumpState) (s : State) : (s.setPump p).fixed = s.fixed := by simp [State.setPump]
@[simp] theorem fixed_pausePump (s : State) : s.pausePump.fixed = s.fixed := by
  unfold State.pausePump
  split
  · exact fixed_setPump _ _
  · rfl
@[simp] theorem fixed_decidePump (s : State) : s.decidePump.fixed = s.fixed := by
  unfold State.decidePump
  split <;> simp
@[simp] theorem fixed_requestPump (s : State) : s.requestPump.fixed = s.fixed := by simp [State.requestPump]
@[simp] theorem fixed_regrant (s : State) : s.regrant.fixed = s.fixed := by simp [State.regrant]
@[simp] theorem fixed_unitsReturned (s : State) : s.unitsReturned.fixed = s.fixed := by simp [State.unitsReturned]
@[simp] theorem fixed_dropPump (p : PumpState) (s : State) : (s.dropPump p).fixed = s.fixed := by
  unfold State.dropPump
  split
  · simp only [fixed_unitsReturned, fixed_setPump]
    rfl
  · simp
@[simp] theorem fixed_forcePause (s : State) : s.forcePause.fixed = s.fixed := by
  unfold State.forcePause
  split <;> simp
@[simp] theorem fixed_findUnits (n : Nat) (s : State) : (s.findUnits n).fixed = s.fixed := by
  unfold State.findUnits
  dsimp only
  (repeat' split) <;> simp
@[simp] theorem fixed_regimeOn (s : State) : s.regimeOn.fixed = s.fixed := by
  unfold State.regimeOn
  split <;> simp
@[simp] theorem fixed_regimeOff (s : State) : s.regimeOff.fixed = s.fixed := by
  unfold State.regimeOff
  split <;> simp

/-! ### The retained-record store -/

@[simp] theorem fixed_beginWrite (s : State) : s.beginWrite.fixed = s.fixed := by
  unfold State.beginWrite
  (repeat' split) <;> rfl
@[simp] theorem fixed_addProfileWrite (p : Fin 6) (s : State) : (s.addProfileWrite p).fixed = s.fixed := fixed_beginWrite _
@[simp] theorem fixed_addParkingWrite (r : ParkingRecord) (s : State) : (s.addParkingWrite r).fixed = s.fixed := fixed_beginWrite _
@[simp] theorem fixed_invalidateParking (s : State) : s.invalidateParking.fixed = s.fixed := by
  unfold State.invalidateParking
  split <;> simp

/-! ### The axis drives -/

@[simp] theorem Axis.start_position (k : MoveKind) (g : Goal) (x : Axis) : (x.start k g).position = x.position := by
  unfold Axis.start
  dsimp only [Axis.beginDrive]
  split <;> rfl
@[simp] theorem Axis.start_cfg (k : MoveKind) (g : Goal) (x : Axis) : (x.start k g).cfg = x.cfg := by
  unfold Axis.start
  dsimp only [Axis.beginDrive]
  split <;> rfl
@[simp] theorem Axis.stop_position (c : StopCause) (x : Axis) : (x.stop c).position = x.position := by
  unfold Axis.stop
  (repeat' split) <;> rfl
@[simp] theorem Axis.stop_cfg (c : StopCause) (x : Axis) : (x.stop c).cfg = x.cfg := by
  unfold Axis.stop
  (repeat' split) <;> rfl
@[simp] theorem fixed_startAxis (a : Fin 8) (k : MoveKind) (g : Goal) (s : State) : (s.startAxis a k g).fixed = s.fixed := by
  unfold State.startAxis
  simp only [fixed_post]
  apply fixed_setAxis
  · split <;> simp [Axis.completeAtStart]
  · split <;> simp [Axis.completeAtStart]
@[simp] theorem fixed_stopRequest (a : Fin 8) (c : StopCause) (s : State) : (s.stopRequest a c).fixed = s.fixed := by
  unfold State.stopRequest
  simp only [fixed_post]
  exact fixed_setAxis _ _ _ (by simp) (by simp)

/-! ### The claim unit -/

@[simp] theorem fixed_setOwner (a : Fin 8) (o : Owner) (s : State) : (s.setOwner a o).fixed = s.fixed := by simp [State.setOwner]
@[simp] theorem fixed_dropEntry (a : Fin 8) (s : State) : (s.dropEntry a).fixed = s.fixed := rfl
@[simp] theorem fixed_hold (a : Fin 8) (o : Owner) (s : State) : (s.hold a o).fixed = s.fixed := rfl
@[simp] theorem fixed_freeSlotOf (a : Fin 8) (s : State) : (s.freeSlotOf a).fixed = s.fixed := rfl
@[simp] theorem fixed_takeSlot (x : Slot) (s : State) : (s.takeSlot x).fixed = s.fixed := by
  unfold State.takeSlot
  split <;> rfl
@[simp] theorem fixed_replaceEntry (e : Entry) (s : State) : (s.replaceEntry e).fixed = s.fixed := by
  unfold State.replaceEntry
  split <;> simp
@[simp] theorem fixed_admitEntry (e : Entry) (s : State) : (s.admitEntry e).fixed = s.fixed := by
  unfold State.admitEntry
  simp only [fixed_claims]
  (repeat' split) <;> simp
@[simp] theorem fixed_claim (e : Entry) (s : State) : (s.claim e).1.fixed = s.fixed := by
  unfold State.claim
  split <;> simp
@[simp] theorem fixed_claimGroup (es : List Entry) (s : State) : (s.claimGroup es).1.fixed = s.fixed := by
  unfold State.claimGroup
  split
  · simp only
    rw [fixed_foldl _ fun t e => by simp]
    simp
  · simp only
    rw [fixed_foldl _ fun t e => by split <;> simp]
  · rfl
@[simp] theorem fixed_takeStart (e : Entry) (s : State) : (s.takeStart e).fixed = s.fixed := by simp [State.takeStart]
@[simp] theorem fixed_startUnits (es : List Entry) (s : State) : (s.startUnits es).fixed = s.fixed := by
  unfold State.startUnits
  simp only [fixed_call]
  rw [fixed_foldl _ fun t e => by simp, fixed_recompute, fixed_foldl _ fun t e => by simp, fixed_findUnits]
@[simp] theorem fixed_arbiter (s : State) : s.arbiter.fixed = s.fixed := by
  unfold State.arbiter
  (repeat' split) <;> first | rfl | (dsimp only; (repeat' split) <;> simp)
@[simp] theorem fixed_returnSlot (a : Fin 8) (r : MoveResult) (d : Option Dir) (ws : List Work) (s : State) :
    (s.returnSlot a r d ws).fixed = s.fixed := by
  unfold State.returnSlot
  (repeat' split) <;> simp
@[simp] theorem fixed_moveOver (a : Fin 8) (r : MoveResult) (d : Option Dir) (s : State) : (s.moveOver a r d).fixed = s.fixed :=
  fixed_returnSlot _ _ _ _ _
@[simp] theorem fixed_startCompleted (a : Fin 8) (d : Option Dir) (s : State) : (s.startCompleted a d).fixed = s.fixed :=
  fixed_returnSlot _ _ _ _ _
@[simp] theorem fixed_settleOwner (a : Fin 8) (o : Owner) (s : State) : (s.settleOwner a o).fixed = s.fixed := by
  unfold State.settleOwner
  (repeat' split) <;> simp
@[simp] theorem fixed_tellFree (a : Fin 8) (s : State) : (s.tellFree a).fixed = s.fixed := rfl
@[simp] theorem fixed_linkWithdrawn (a : Fin 8) (r : MoveResult) (s : State) : (s.linkWithdrawn a r).fixed = s.fixed :=
  fixed_setAxis _ _ _ rfl rfl
@[simp] theorem fixed_ownerStop (o : Owner) (as : List (Fin 8)) (s : State) : (s.ownerStop o as).fixed = s.fixed := by
  unfold State.ownerStop
  simp only [fixed_call]
  rw [fixed_foldl _ fun t e => by split <;> simp, fixed_claims, fixed_foldl _ fun t a => by simp]
@[simp] theorem fixed_release (o : Owner) (c : StopCause) (s : State) : (s.release o c).fixed = s.fixed := by
  unfold State.release
  simp only [fixed_call]
  rw [fixed_foldl _ fun t e => by simp, fixed_claims, fixed_foldl _ fun t a => by simp]

/-! ### The cell controller -/

@[simp] theorem fixed_setBolster (c : Fin 12) (p : BolsterProgress) (s : State) : (s.setBolster c p).fixed = s.fixed := by
  unfold State.setBolster
  dsimp only
  (repeat' split) <;> first | rfl | (rw [fixed_postIf]; rfl)
@[simp] theorem fixed_reportBolster (c : Fin 12) (p : BolsterProgress) (s : State) : (s.reportBolster c p).fixed = s.fixed := by
  unfold State.reportBolster
  split <;> simp
@[simp] theorem fixed_settlePump (b : Bool) (s : State) : (s.settlePump b).fixed = s.fixed := by
  unfold State.settlePump
  (repeat' split) <;> first
    | (simp; done)
    | (dsimp only; (repeat' split) <;> simp only [fixed_forcePause, fixed_decidePump, fixed_syncValves])
@[simp] theorem fixed_placeCell (c : Fin 12) (s : State) : (s.placeCell c).fixed = s.fixed := by
  unfold State.placeCell
  dsimp only
  split <;> rfl
@[simp] theorem fixed_unqueue (c : Fin 12) (s : State) : (s.unqueue c).fixed = s.fixed := rfl
@[simp] theorem fixed_joinQueue (c : Fin 12) (s : State) : (s.joinQueue c).fixed = s.fixed := by
  unfold State.joinQueue
  dsimp only
  split <;> simp [fixed_setCell]
@[simp] theorem fixed_leaveQueue (c : Fin 12) (s : State) : (s.leaveQueue c).fixed = s.fixed := by
  simp [State.leaveQueue, fixed_setCell]
@[simp] theorem fixed_endVent (c : Fin 12) (s : State) : (s.endVent c).fixed = s.fixed := by
  unfold State.endVent
  dsimp only
  split <;> simp [fixed_setCell]
@[simp] theorem fixed_regulate (c : Fin 12) (s : State) : (s.regulate c).fixed = s.fixed := by
  unfold State.regulate
  dsimp only
  (repeat' split) <;> simp [fixed_setCell]
@[simp] theorem fixed_setTarget (c : Fin 12) (n : Nat) (o : CellOwner) (s : State) : (s.setTarget c n o).fixed = s.fixed := by
  unfold State.setTarget
  dsimp only
  (repeat' split) <;> simp [fixed_setCell]
@[simp] theorem fixed_supportSet (c : Fin 12) (n : Nat) (s : State) : (s.supportSet c n).fixed = s.fixed := fixed_setTarget _ _ _ _
@[simp] theorem fixed_emptyFillQueue (s : State) : s.emptyFillQueue.fixed = s.fixed := by
  unfold State.emptyFillQueue
  dsimp only
  split <;> simp only [fixed_dropPump, fixed_queue] <;> refine fixed_foldl _ (fun t c => ?_) _ _ <;> exact fixed_setCell _ _ _ rfl
@[simp] theorem fixed_regulateAll (s : State) : s.regulateAll.fixed = s.fixed := fixed_foldl _ (fun t c => fixed_regulate c t) _ _
@[simp] theorem fixed_braceSetCell (c : Fin 12) (s : State) : (s.braceSetCell c).fixed = s.fixed := by
  simp only [State.braceSetCell]
  split <;> simp
@[simp] theorem fixed_braceSet (s : State) : s.braceSet.fixed = s.fixed := by simp [State.braceSet]
@[simp] theorem fixed_braceReturn (m n : Nat) (s : State) : (s.braceReturn m n).fixed = s.fixed := by simp [State.braceReturn]

/-! ### The heat controller -/

@[simp] theorem fixed_workOutDemand (b : Bool) (z : Fin 4) (s : State) : (s.workOutDemand b z).fixed = s.fixed := by
  unfold State.workOutDemand
  dsimp only
  split
  · rw [fixed_recompute, fixed_postIf]
    exact fixed_setZone _ _ _ rfl rfl
  · exact fixed_setZone _ _ _ rfl rfl
theorem Zone.withMode_temperature (m : ZoneMode) (z : Zone) : (z.withMode m).temperature = z.temperature := by
  unfold Zone.withMode
  (repeat' split) <;> rfl
theorem Zone.withMode_maxDuty (m : ZoneMode) (z : Zone) : (z.withMode m).maxDuty = z.maxDuty := by
  unfold Zone.withMode
  (repeat' split) <;> rfl
@[simp] theorem fixed_setMode (z : Fin 4) (m : ZoneMode) (s : State) : (s.setMode z m).fixed = s.fixed := by
  unfold State.setMode
  dsimp only
  rw [fixed_workOutDemand, fixed_postIf]
  exact fixed_setZone _ _ _ (Zone.withMode_temperature _ _) (Zone.withMode_maxDuty _ _)
@[simp] theorem fixed_heatOff (s : State) : s.heatOff.fixed = s.fixed := fixed_foldl _ (fun t z => fixed_setMode z _ t) _ _

/-! ### The massage engine -/

@[simp] theorem fixed_applyStep (p : Fin 8) (s : State) : (s.applyStep p).fixed = s.fixed := by
  unfold State.applyStep
  exact fixed_foldl _ (fun t i => by split <;> simp) _ _
@[simp] theorem fixed_showStep (p : Fin 8) (s : State) : (s.showStep p).fixed = s.fixed := fixed_applyStep _ _
@[simp] theorem fixed_beginSession (p : Fin 8) (i : Nat) (s : State) : (s.beginSession p i).fixed = s.fixed := by
  unfold State.beginSession
  dsimp only
  rw [fixed_showStep, fixed_foldl _ fun t i => by simp [fixed_setCell], fixed_postIf]
  rfl
@[simp] theorem fixed_startMassage (p : Fin 8) (i : Nat) (s : State) : (s.startMassage p i).1.fixed = s.fixed := by
  unfold State.startMassage
  split <;> simp
@[simp] theorem fixed_haltMassage (c : LastStop) (s : State) : (s.haltMassage c).fixed = s.fixed := by
  unfold State.haltMassage
  split
  · rfl
  · dsimp only
    rw [fixed_foldl _ fun t i => by simp]
    rfl

/-! ### The plan executor -/

@[simp] theorem fixed_plans (s : State) (c n : Option Plan) (l : Option LastPlan) :
    ({ s with plans := { s.plans with current := c, next := n, last := l } } : State).fixed = s.fixed := rfl
@[simp] theorem fixed_setCurrent (p : Option Plan) (s : State) : (s.setCurrent p).fixed = s.fixed := rfl
@[simp] theorem fixed_onCurrent (f : Plan → Plan) (s : State) : (s.onCurrent f).fixed = s.fixed := rfl
@[simp] theorem fixed_beginMove (ts : List AxisTarget) (g : Bool) (s : State) : (s.beginMove ts g).fixed = s.fixed := by
  unfold State.beginMove
  dsimp only
  split <;> rfl
@[simp] theorem fixed_beginStep (r : StepRef) (s : State) : (s.beginStep r).fixed = s.fixed := by
  unfold State.beginStep
  (repeat' split) <;> first | rfl | (dsimp only; simp)
@[simp] theorem fixed_planBegin (s : State) : s.planBegin.fixed = s.fixed := by
  unfold State.planBegin
  (repeat' split) <;> simp
@[simp] theorem fixed_planClaim (a : Fin 8) (s : State) : (s.planClaim a).fixed = s.fixed := by
  unfold State.planClaim
  (repeat' split) <;> first | rfl | (dsimp only; simp)
@[simp] theorem fixed_planClaimGroup (s : State) : s.planClaimGroup.fixed = s.fixed := by
  unfold State.planClaimGroup
  (repeat' split) <;> first | rfl | (dsimp only; (repeat' split) <;> simp)
@[simp] theorem fixed_planFree (a : Fin 8) (s : State) : (s.planFree a).fixed = s.fixed := by
  unfold State.planFree
  (repeat' split) <;> simp
@[simp] theorem fixed_planStarted (a : Fin 8) (s : State) : (s.planStarted a).fixed = s.fixed := rfl
@[simp] theorem fixed_takeResult (r : MoveResult) (s : State) : (s.takeResult r).fixed = s.fixed := by
  unfold State.takeResult
  split <;> simp
@[simp] theorem fixed_planResult (a : Fin 8) (r : MoveResult) (s : State) : (s.planResult a r).fixed = s.fixed := by
  unfold State.planResult
  split
  · rfl
  · dsimp only
    split <;> simp
@[simp] theorem fixed_planWithdrawn (a : Fin 8) (r : MoveResult) (s : State) : (s.planWithdrawn a r).fixed = s.fixed := by
  unfold State.planWithdrawn
  split
  · rfl
  · dsimp only
    split <;> simp
@[simp] theorem fixed_planAbort (r : Reason) (s : State) : (s.planAbort r).fixed = s.fixed := by
  unfold State.planAbort
  (repeat' split) <;> first | rfl | (dsimp only; rw [fixed_postIf]; rfl)
@[simp] theorem fixed_planAtEnd (s : State) : s.planAtEnd.fixed = s.fixed := rfl
@[simp] theorem fixed_planAdvance (p : Plan) (s : State) : (s.planAdvance p).fixed = s.fixed := by
  unfold State.planAdvance
  (repeat' split) <;> simp
@[simp] theorem fixed_leaveCurrent (p : Plan) (o : PlanOutcome) (s : State) : (s.leaveCurrent p o).fixed = s.fixed := by
  unfold State.leaveCurrent
  dsimp only
  split
  · rw [fixed_postIf]
    rfl
  · rw [fixed_call, fixed_post, fixed_plans, fixed_postIf]
    rfl
@[simp] theorem fixed_planCheck (s : State) : s.planCheck.fixed = s.fixed := by
  unfold State.planCheck
  (repeat' split) <;> simp
@[simp] theorem fixed_placePlan (l : PlanSlot) (p : Plan) (s : State) : (s.placePlan l p).fixed = s.fixed := by
  unfold State.placePlan
  split <;> rfl

/-! ### The profile store -/

@[simp] theorem fixed_changeProfile (p : Fin 6) (st : ProfileState) (c : ProfileContent) (x : ProfileAction) (s : State) :
    (s.changeProfile p st c x).fixed = s.fixed := by
  unfold State.changeProfile
  rw [fixed_addProfileWrite]
  rfl
@[simp] theorem fixed_storeProfile (p : Fin 6) (m : CaptureMask) (o : Source) (s : State) :
    (s.storeProfile p m o).1.fixed = s.fixed := by
  unfold State.storeProfile
  (repeat' split) <;> simp
@[simp] theorem fixed_presetLumbar (l : Option (Nat × Nat)) (s : State) : (s.presetLumbar l).fixed = s.fixed := by
  unfold State.presetLumbar
  split <;> simp
@[simp] theorem fixed_presetHeat (h : Option (Vector HeatPreset 4)) (s : State) : (s.presetHeat h).fixed = s.fixed := by
  unfold State.presetHeat
  split
  · exact fixed_foldl _ (fun t z => by simp) _ _
  · rfl
@[simp] theorem fixed_presetMassage (m : Option (Fin 8 × Nat)) (s : State) : (s.presetMassage m).fixed = s.fixed := by
  unfold State.presetMassage
  (repeat' split) <;> simp
@[simp] theorem fixed_acceptRecall (p : Fin 6) (o : Source) (l : PlanSlot) (s : State) : (s.acceptRecall p o l).fixed = s.fixed := by
  simp [State.acceptRecall]
@[simp] theorem fixed_recall (p : Fin 6) (o : Source) (s : State) : (s.recall p o).1.fixed = s.fixed := by
  unfold State.recall
  split <;> simp

/-- The state of an answer that is taken apart. -/
theorem fixed_fst {α : Type} {p : State × α} {t u : State} {a : α} (e : p = (t, a)) (h : p.1.fixed = u.fixed) :
    t.fixed = u.fixed := by
  subst e
  exact h

/-! ### The brace controller -/

theorem fixed_setBrace (b : Brace) (s : State) (h : (b.deadline, b.holdTime, b.bolsterPressure, b.ackMode, b.lineActive)
    = (s.brace.deadline, s.brace.holdTime, s.brace.bolsterPressure, s.brace.ackMode, s.brace.lineActive)) :
    (s.setBrace b).fixed = s.fixed := by
  unfold State.setBrace
  rw [fixed_postIf]
  simp only [State.fixed, Fixed.mk.injEq, and_true, true_and]
  exact h
@[simp] theorem fixed_onBraceAxis (a : Fin 8) (f : BraceAxis → BraceAxis) (s : State) : (s.onBraceAxis a f).fixed = s.fixed :=
  fixed_setBrace _ _ rfl
@[simp] theorem fixed_braceDecide (s : State) : s.braceDecide.fixed = s.fixed := by
  unfold State.braceDecide
  dsimp only
  rw [fixed_call]
  exact fixed_setBrace _ _ rfl
@[simp] theorem fixed_braceClaim (a : Fin 8) (s : State) : (s.braceClaim a).fixed = s.fixed := by
  unfold State.braceClaim
  (repeat' split) <;> first
    | rfl
    | (rename_i e _; exact fixed_fst e (fixed_claim _ s))
    | (rename_i e _; exact (fixed_onBraceAxis _ _ _).trans (fixed_fst e (fixed_claim _ s)))
@[simp] theorem fixed_closeWindow (s : State) : s.closeWindow.fixed = s.fixed := by
  unfold State.closeWindow
  rw [fixed_postIf]
  rfl
@[simp] theorem fixed_braceEnter (src : BraceSource) (s : State) : (s.braceEnter src).fixed = s.fixed := by
  unfold State.braceEnter
  dsimp only
  rw [fixed_call, fixed_closeWindow]
  exact fixed_setBrace _ _ rfl
@[simp] theorem fixed_braceRest (s : State) : s.braceRest.fixed = s.fixed := by simp [State.braceRest]
@[simp] theorem fixed_reBrace (s : State) : s.reBrace.fixed = s.fixed := by
  unfold State.reBrace
  dsimp only
  rw [fixed_call]
  exact fixed_setBrace _ _ rfl
@[simp] theorem fixed_takeBraceRequest (src : BraceSource) (s : State) : (s.takeBraceRequest src).fixed = s.fixed := by
  unfold State.takeBraceRequest
  dsimp only
  split
  · simp
  · exact fixed_setBrace _ _ rfl
  · exact fixed_setBrace _ _ rfl
  · exact fixed_setBrace _ _ rfl
  · rw [fixed_reBrace]
    exact fixed_setBrace _ _ rfl
@[simp] theorem fixed_braceRequest (src : BraceSource) (s : State) : (s.braceRequest src).fixed = s.fixed := by
  unfold State.braceRequest
  split
  · simp
  · rw [fixed_takeBraceRequest, fixed_regulateAll]
    rfl
  · rfl
  · rfl
@[simp] theorem fixed_braceStarted (a : Fin 8) (s : State) : (s.braceStarted a).fixed = s.fixed := fixed_onBraceAxis _ _ _
@[simp] theorem fixed_braceResult (a : Fin 8) (r : MoveResult) (s : State) : (s.braceResult a r).fixed = s.fixed := fixed_onBraceAxis _ _ _
@[simp] theorem fixed_braceWithdrawn (a : Fin 8) (r : MoveResult) (s : State) : (s.braceWithdrawn a r).fixed = s.fixed :=
  fixed_onBraceAxis _ _ _
@[simp] theorem fixed_enterRestoring (s : State) : s.enterRestoring.fixed = s.fixed := by
  unfold State.enterRestoring
  dsimp only
  rw [fixed_call]
  exact fixed_setBrace _ _ rfl
@[simp] theorem fixed_bracedNext (s : State) : s.bracedNext.fixed = s.fixed := by
  unfold State.bracedNext
  (repeat' split) <;> first | rfl | exact fixed_enterRestoring s | exact fixed_setBrace _ _ rfl
@[simp] theorem fixed_claimRestore (a : Fin 8) (s : State) : (s.claimRestore a).fixed = s.fixed := by
  unfold State.claimRestore
  (repeat' split) <;> first | rfl | (dsimp only; (repeat' split) <;> simp)
@[simp] theorem fixed_restoreClaim (a : Fin 8) (s : State) : (s.restoreClaim a).fixed = s.fixed := by
  unfold State.restoreClaim
  split <;> simp
@[simp] theorem fixed_braceFree (a : Fin 8) (s : State) : (s.braceFree a).fixed = s.fixed := by
  unfold State.braceFree
  (repeat' split) <;> simp
@[simp] theorem fixed_returnBolsters (s : State) : s.returnBolsters.fixed = s.fixed := by
  unfold State.returnBolsters
  split <;> simp
@[simp] theorem fixed_toIdle (e : BraceEnd) (s : State) : (s.setBrace (s.brace.toIdle e)).fixed = s.fixed := fixed_setBrace _ _ rfl
theorem fixed_lastEnd (e : Option BraceEnd) (s : State) : (s.setBrace { s.brace with lastEnd := e }).fixed = s.fixed :=
  fixed_setBrace _ _ rfl
@[simp] theorem fixed_finishRestore (s : State) : s.finishRestore.fixed = s.fixed := by
  have base : (s.returnBolsters.setBrace (s.returnBolsters.brace.toIdle (.restored false))).regimeOff.fixed = s.fixed := by
    rw [fixed_regimeOff, fixed_toIdle, fixed_returnBolsters]
  unfold State.finishRestore
  extract_lets massage returned idle
  replace base : idle.fixed = s.fixed := base
  clear_value idle massage
  split
  · exact base
  · exact (fixed_lastEnd _ _).trans ((fixed_startMassage _ _ _).trans base)
@[simp] theorem fixed_braceCheck (s : State) : s.braceCheck.fixed = s.fixed := by
  unfold State.braceCheck
  (repeat' split) <;> first
    | rfl
    | exact fixed_finishRestore s
    | (rw [fixed_call]; exact fixed_setBrace _ _ rfl)
    | (dsimp only; (repeat' split) <;> first | rfl | exact fixed_finishRestore s)
@[simp] theorem fixed_endRestoreBySwitch (s : State) : s.endRestoreBySwitch.fixed = s.fixed := by simp [State.endRestoreBySwitch]

/-! ### The switch scanner -/

theorem fixed_setContact (c : Contact) (x : ContactRec) (s : State) (h : x.pressed = (s.contact c).pressed) :
    (s.setContact c x).fixed = s.fixed := by
  unfold State.setContact
  rw [fixed_postIf]
  simp only [State.fixed, Fixed.mk.injEq, and_true, true_and]
  exact map_set_same _ _ _ _ _ h
@[simp] theorem fixed_makeInert (c : Contact) (s : State) : (s.makeInert c).fixed = s.fixed := fixed_setContact _ _ _ rfl
@[simp] theorem fixed_setJog (a : Fin 8) (j : JogStanding) (s : State) : (s.setJog a j).fixed = s.fixed := rfl
@[simp] theorem fixed_setOpposed (a : Fin 8) (b : Bool) (s : State) : (s.setOpposed a b).fixed = s.fixed := by
  unfold State.setOpposed
  rw [fixed_postIf]
  rfl
@[simp] theorem fixed_setMemory (m : MemoryAction) (s : State) : (s.setMemory m).fixed = s.fixed := by
  unfold State.setMemory
  rw [fixed_postIf]
  rfl
@[simp] theorem fixed_oppose (a : Fin 8) (s : State) : (s.oppose a).fixed = s.fixed := by
  unfold State.oppose
  dsimp only
  split <;> simp
@[simp] theorem fixed_unoppose (a : Fin 8) (s : State) : (s.unoppose a).fixed = s.fixed := by
  unfold State.unoppose
  split <;> simp
@[simp] theorem fixed_switchClaim (a : Fin 8) (d : Dir) (s : State) : (s.switchClaim a d).fixed = s.fixed := by
  unfold State.switchClaim
  dsimp only
  split <;> simp
@[simp] theorem fixed_switchResult (a : Fin 8) (d : Option Dir) (s : State) : (s.switchResult a d).fixed = s.fixed := by
  unfold State.switchResult
  (repeat' split) <;> simp
@[simp] theorem fixed_switchFree (a : Fin 8) (s : State) : (s.switchFree a).fixed = s.fixed := by
  unfold State.switchFree
  (repeat' split) <;> first | rfl | (dsimp only; (repeat' split) <;> simp)
@[simp] theorem fixed_memoryAct (m : Fin 3) (b : Bool) (s : State) : (s.memoryAct m b).fixed = s.fixed := by
  unfold State.memoryAct
  (repeat' split) <;> first
    | (simp; done)
    | (rename_i e; exact (fixed_setMemory _ _).trans (fixed_fst e (fixed_recall _ _ s)))
    | (rename_i e _
       exact (fixed_setMemory _ _).trans (fixed_fst e ((fixed_storeProfile _ _ _ _).trans (fixed_closeWindow s))))
@[simp] theorem fixed_axisAct (a : Fin 8) (d : Dir) (s : State) : (s.axisAct a d).fixed = s.fixed := by
  unfold State.axisAct
  (repeat' split) <;> simp
@[simp] theorem fixed_pressAct (c : Contact) (b : Bool) (s : State) : (s.pressAct c b).fixed = s.fixed := by
  unfold State.pressAct
  split
  · simp
  · rfl
  · simp
@[simp] theorem fixed_pressIgnored (c : Contact) (s : State) : (s.pressIgnored c).fixed = s.fixed := by
  unfold State.pressIgnored
  dsimp only
  (repeat' split) <;> simp
@[simp] theorem fixed_pressTaken (c : Contact) (s : State) : (s.pressTaken c).fixed = s.fixed := by
  unfold State.pressTaken
  (repeat' split) <;> simp
@[simp] theorem fixed_releaseAct (c : Contact) (s : State) : (s.releaseAct c).fixed = s.fixed := by
  unfold State.releaseAct
  (repeat' split) <;> simp

/-! ### A request, and all of them -/

@[simp] theorem fixed_shutdownRest (s : State) : s.shutdownRest.fixed = s.fixed := by simp [State.shutdownRest]
@[simp] theorem fixed_reportStart (o : Owner) (a : Fin 8) (s : State) : (s.reportStart o a).fixed = s.fixed := by
  unfold State.reportStart
  split <;> simp
@[simp] theorem fixed_reportResult (o : Owner) (a : Fin 8) (r : MoveResult) (d : Option Dir) (s : State) :
    (s.reportResult o a r d).fixed = s.fixed := by
  unfold State.reportResult
  split <;> simp
@[simp] theorem fixed_reportWithdrawn (e : Entry) (r : MoveResult) (s : State) : (s.reportWithdrawn e r).fixed = s.fixed := by
  unfold State.reportWithdrawn
  split <;> simp

/-- No request touches the fixed part of the state. -/
@[simp] theorem fixed_doWork (w : Work) (s : State) : (doWork w s).fixed = s.fixed := by
  unfold doWork
  split <;> simp

/-- Nor does any number of them. -/
@[simp] theorem fixed_drain (n : Nat) (s : State) : (drain n s).fixed = s.fixed := by
  induction n generalizing s with
  | zero => rfl
  | succ n ih =>
    unfold drain
    split
    · rfl
    · rw [ih, fixed_doWork, fixed_agenda]

/-! ### Reading the fixed part -/

theorem fixed_position {s t : State} (h : t.fixed = s.fixed) (a : Fin 8) : (t.axis a).position = (s.axis a).position := by
  have k := congrArg (fun f => f.axes[a].1) h
  simpa [State.fixed, State.axis] using k
theorem fixed_cfg {s t : State} (h : t.fixed = s.fixed) (a : Fin 8) : (t.axis a).cfg = (s.axis a).cfg := by
  have k := congrArg (fun f => f.axes[a].2) h
  simpa [State.fixed, State.axis] using k
theorem fixed_pressure {s t : State} (h : t.fixed = s.fixed) (c : Fin 12) : (t.cell c).pressure = (s.cell c).pressure := by
  have k := congrArg (fun f => f.cells[c]) h
  simpa [State.fixed, State.cell] using k
theorem fixed_temperature {s t : State} (h : t.fixed = s.fixed) (z : Fin 4) : (t.zone z).temperature = (s.zone z).temperature := by
  have k := congrArg (fun f => f.zones[z].1) h
  simpa [State.fixed, State.zone] using k
theorem fixed_maxDuty {s t : State} (h : t.fixed = s.fixed) (z : Fin 4) : (t.zone z).maxDuty = (s.zone z).maxDuty := by
  have k := congrArg (fun f => f.zones[z].2) h
  simpa [State.fixed, State.zone] using k
theorem fixed_pressed {s t : State} (h : t.fixed = s.fixed) (c : Contact) : (t.contact c).pressed = (s.contact c).pressed := by
  have k := congrArg (fun f => f.levels[contactIndex c]) h
  simpa [State.fixed, State.contact] using k
theorem fixed_link {s t : State} (h : t.fixed = s.fixed) :
    t.link = { s.link with pendingNotices := t.link.pendingNotices } := by
  have k : ({ t.link with pendingNotices := Vector.replicate 10 false } : Link)
      = { s.link with pendingNotices := Vector.replicate 10 false } := congrArg Fixed.link h
  simp only [Link.mk.injEq] at k
  cases hl : t.link
  simp_all
theorem fixed_pending {s t : State} (h : t.fixed = s.fixed) : t.pending = s.pending := congrArg Fixed.pending h

end Sys2Proof.Machine
end

