-- ==== Sys2Proof/Tests/Slice0.lean ====
section
/-! SUPPORT. Tests on small states: what the check of operands refuses, what some commands do, and for each statement a state and
operands that meet its hypotheses, clause by clause, at the boundary values where there are any; the parts of a statement that joins
several have a witness each, under the part's name. -/

namespace Sys2Proof.Tests

-- One theorem after the other: side by side, each waits for the kernel on a thread of its own, and the threads' stacks fill memory.
set_option Elab.async false

open Sys2Proof Sys2Proof.Machine

/-! ### Small states -/

/-- The state an outcome goes on in. -/
def after (c : Instr) (s : State) : State :=
  match exec c s with
  | .next t => t
  | .fault _ | .refused _ => s

/-- The part in AWAKE with nothing under way. -/
def awake : State := { State.reset with power := { State.reset.power with state := .awake } }

/-- The part in SLEEP. -/
def asleep : State := { State.reset with power := { State.reset.power with state := .sleep } }

/-- The part with every axis referenced at a position of a travel of 3496. -/
def seated (position : Nat) (s : State) : State :=
  { s with axes := s.axes.map fun x => { x with referenced := true, travel := some 3496, position := position } }

/-- A targeted LINK move of axis 0. -/
def aMove (target : Nat) : Move := ⟨.targeted, some target, none, false, none, none, none, 16, 80, 6, 8⟩

/-- A referencing of axis 0 in a leg. -/
def aReference (leg : Leg) : Move := ⟨.reference, none, some leg, false, none, none, none, 16, 80, 6, 8⟩

/-- A jog of axis 0. -/
def aJog : Move := ⟨.jog, none, none, false, none, none, some .plus, 16, 80, 6, 8⟩

/-- Axis 0 RUNNING under an owner. -/
def running (o : Owner) (m : Move) (s : State) : State :=
  { s with
    axes := s.axes.set 0 { s.axes[0] with activity := .running, bridge := .driven, move := some m }
    claims := { s.claims with
      owners := s.claims.owners.set 0 o, slots := s.claims.slots.set 0 (some ⟨0, o, m.kind, m.ratedUnits⟩) } }

/-- Axis 0 STOPPING under an owner. -/
def stoppingFor (o : Owner) (m : Move) (s : State) : State :=
  { s with
    axes := s.axes.set 0 { s.axes[0] with activity := .stopping, bridge := .braked, settleLeft := some 30, move := some m }
    claims := { s.claims with
      owners := s.claims.owners.set 0 o, slots := s.claims.slots.set 0 (some ⟨0, o, m.kind, m.ratedUnits⟩) } }

/-- Axis 0 STOPPING under LINK. -/
def stopping (m : Move) (s : State) : State := stoppingFor .link m s

/-- A latch of axis 0. -/
def latched (l : AxisLatch) (act : Activity) (s : State) : State :=
  { s with axes := s.axes.set 0 { s.axes[0] with latch := l, activity := act } }

/-- A notice being sent. -/
def sending (s : State) : State :=
  { s with link := { s.link with sending := some (.notice .supply (s.noticeContent .supply)) } }

/-- A brace in a state. -/
def braceIn (b : BraceState) (s : State) : State := { s with brace := { s.brace with state := b } }

/-- A plan at a descriptor. -/
def aPlan (steps : Nat) (pause : Option Nat) : Plan :=
  ⟨.chain 0, .link, .stopError, true, .running, some (.descriptor 0), [], pause, [], steps, .empty, none, false, [], none⟩

/-- A plan in CURRENT at a pause whose next is given. -/
def pausing (steps : Nat) (next : Option (Fin 32)) (s : State) : State :=
  { s with plans := { s.plans with
      table := s.plans.table.set 0 (some (.pause 5 next)), current := some (aPlan steps (some 50)) } }

/-- Massage RUNNING at a step of the built-in WAVE. -/
def massaging (counter : Nat) (staged : Option (Fin 8)) (s : State) : State :=
  { s with massage := { s.massage with
      running := true, active := some 0, staged := staged, intensity := some 1, counter := counter, stepLeft := some 500
      sessionLeft := some 900000 } }

/-- Cell 3 at the head of the fill queue of a pump that runs. -/
def filling (s : State) : State :=
  { s with
    cells := { s.cells with
      queue := [3], pump := .running, cells := s.cells.cells.set 3 ⟨.support, 40, 20, .fill, 100, .none⟩ }
    gov := { s.gov with pumpGrant := 8 } }

/-- Cell 3 outside the queue. -/
def celled (x : Cell) (s : State) : State := { s with cells := { s.cells with cells := s.cells.cells.set 3 x } }

/-- The pump in a state with a fill queue. -/
def pumped (p : PumpState) (q : List (Fin 12)) (s : State) : State := { s with cells := { s.cells with pump := p, queue := q } }

/-- Zone 1 with a record of the test's. -/
def zoned (mode : ZoneMode) (t : Option Int) (l : ZoneLatch) (s : State) : State :=
  { s with zones := s.zones.set 1 { s.zones[1] with mode := mode, temperature := t, latch := l } }

/-- Contact records changed. -/
def contacted (c : Contact) (r : ContactRec) (s : State) : State :=
  { s with switches := { s.switches with contacts := s.switches.contacts.set (contactIndex c) r } }

/-- The pair record of axis 0 changed. -/
def paired (p : PairRec) (s : State) : State := { s with switches := { s.switches with pairs := s.switches.pairs.set 0 p } }

/-- Profile slot 0 VALID with one position. -/
def profiled (s : State) : State :=
  { s with profiles := s.profiles.set 0 ⟨.valid, { ProfileContent.empty with positions := ProfileContent.empty.positions.set 0 (some 900) }, true⟩ }

/-- A write in progress. -/
def storing (j : WriteJob) (s : State) : State := { s with store := { s.store with job := some j } }

/-- A reply of the slot being sent. -/
def replying (code : Byte) (s : State) : State :=
  { s with link := { s.link with
      slot := .replied ⟨code, 9, []⟩ .done .none, owed := []
      sending := some (.reply code 9 .done .none true) } }

/-- The replies owed. -/
def owing (o : List Owed) (s : State) : State := { s with link := { s.link with owed := o } }

/-- The start queue. -/
def queued (es : List Entry) (s : State) : State := { s with claims := { s.claims with queue := es } }

/-- The supply LOW. -/
def low (s : State) : State := { s with gov := { s.gov with supply := .low } }

/-- A parking standing. -/
def parked (p : ParkingStanding) (s : State) : State := { s with power := { s.power with standing := p } }

/-- A jog of an axis in direction +, as its queue entry. -/
def jogEntry (a : Fin 8) (o : Owner) : Entry := ⟨a, o, .jog, .dir .plus, none⟩

/-- The part in SHUTTING_DOWN. -/
def shuttingDown (ph : ShutdownPhase) (s : State) : State :=
  { s with power := { s.power with state := .shuttingDown, phase := ph } }

/-! ### What the check of operands refuses -/

theorem test_wf_accepts :
    (Instr.move 1 [0, 1, 0]).wf = true ∧ (Instr.patternLoadMask 1 (0 :: 1 :: List.replicate 16 0)).wf = true
      ∧ (Instr.patternLoadHeader 1 [3, 0, 6, 5]).wf = true ∧ (Instr.braceRelease 1 [0]).wf = true
      ∧ (Instr.unknownCode 0x07 1 []).wf = true ∧ (Instr.frameReceived (frameBytes 1 0x06 1 [0]).tail).wf = true
      ∧ (Instr.supplyLow 89).wf = true ∧ (Instr.supplyNormal 96).wf = true ∧ (Instr.pumpOvercurrent 151).wf = true
      ∧ (Instr.identify 1 (List.replicate 61 0)).wf = true := by decide +kernel

theorem test_wf_refuses_a_payload_that_fits_no_frame : (Instr.identify 1 (List.replicate 62 0)).wf = false := by decide +kernel

theorem test_wf_refuses_a_mask_part_as_header :
    (Instr.patternLoadHeader 1 (0 :: 1 :: List.replicate 16 0)).wf = false := by decide +kernel

theorem test_wf_refuses_a_header_as_mask_part : (Instr.patternLoadMask 1 [3, 0, 6, 5]).wf = false := by decide +kernel

theorem test_wf_refuses_the_after_crash_flag_as_release : (Instr.braceRelease 1 [1]).wf = false := by decide +kernel

theorem test_wf_refuses_a_known_code_as_unknown : (Instr.unknownCode 0x10 1 []).wf = false := by decide +kernel

theorem test_wf_refuses_a_frame_cut_short :
    (Instr.frameReceived (frameBytes 1 0x06 1 [0]).tail.dropLast).wf = false ∧ (Instr.frameReceived []).wf = false
      ∧ (Instr.frameReceived (2 :: List.replicate 4 0)).wf = false ∧ (Instr.frameReceived (65 :: List.replicate 67 0)).wf = false := by
  decide +kernel

theorem test_wf_refuses_readings_on_the_other_side :
    (Instr.supplyLow 90).wf = false ∧ (Instr.supplyNormal 95).wf = false ∧ (Instr.pumpOvercurrent 150).wf = false := by
  decide +kernel

/-! ### What some commands do -/

theorem test_step_takes_the_front_command :
    step { awake with pending := [.setPress, .vehicle 1 [0]] } = exec .setPress { awake with pending := [.vehicle 1 [0]] }
      ∧ (after .setPress { awake with pending := [.vehicle 1 [0]] }).pending = [.vehicle 1 [0]]
      ∧ (after .setPress awake).switches.window = some 5000 :=
  ⟨rfl, by decide +kernel, by decide +kernel⟩

theorem test_starting_ends_in_awake :
    (after .startingEnd State.reset).power.state = .awake
      ∧ (after .startingEnd State.reset).link.sending.isSome = true := by decide +kernel

theorem test_move_drives_toward_its_target :
    ((after (.move 1 [0, 0x05, 0xDC]) (seated 1000 awake)).axis 0).activity = .running
      ∧ ((after (.move 1 [0, 0x05, 0xDC]) (seated 1000 awake)).axis 0).direction = .plus
      ∧ (after (.move 1 [0, 0x05, 0xDC]) (seated 1000 awake)).owner 0 = .link := by decide +kernel

theorem test_move_below_the_soft_limit_is_bad : Spec.moveReply (seated 1000 awake) 0 15 = .badParameter := by decide +kernel

theorem test_move_of_an_unreferenced_axis_is_refused :
    (after (.move 1 [0, 0x05, 0xDC]) awake).link.slot = .replied ⟨0x10, 1, [0, 0x05, 0xDC]⟩ .refused .none := by decide +kernel

theorem test_third_stall_latches :
    ((after (.stall 0) (running .link (aMove 1500)
      { seated 1000 awake with axes := (seated 1000 awake).axes.map fun x => { x with stallCount := 2 } })).axis 0).latch = .stall := by
  decide +kernel

theorem test_settle_in_tolerance_is_reached :
    ((after (.settle 0) (stopping { aMove 1008 with ended := some .coastLead } (seated 1000 awake))).axis 0).lastResult
      = some .reached := by decide +kernel

theorem test_settle_outside_tolerance_corrects :
    ((after (.settle 0) (stopping { aMove 1009 with ended := some .coastLead } (seated 1000 awake))).axis 0).activity = .running := by
  decide +kernel

theorem test_reference_learns_the_travel :
    ((after (.settle 0) (stopping { aReference .leg2 with ended := some .stall } { awake with
      axes := awake.axes.map fun x => { x with position := 64 } })).axis 0).travel = some 64 := by decide +kernel

theorem test_reference_with_a_short_travel_fails :
    ((after (.settle 0) (stopping { aReference .leg2 with ended := some .stall } { awake with
      axes := awake.axes.map fun x => { x with position := 63 } })).axis 0).latch = .referenceFailed := by decide +kernel

theorem test_brace_preempts_a_jog :
    ((after (.brace 1 []) (running .link aJog awake)).axis 0).move.map (·.stopCause) = some (some (.preempt .brace)) := by
  decide +kernel

theorem test_brace_line_starts_a_brace : (after .braceLineActivation awake).brace.state = .bracing := by decide +kernel

theorem test_leak_latches_the_cell :
    ((after (.leak 3) (filling awake)).cell 3).latch = .leak ∧ (after (.leak 3) (filling awake)).cells.queue = [] := by decide +kernel

theorem test_low_supply_stops_the_pump : (after (.supplyLow 89) (filling awake)).cells.pump = .paused := by decide +kernel

theorem test_overtemp_at_sixty_degrees :
    ((after (.temperatureReading 1 6000) awake).zone 1).latch = .overtemp
      ∧ ((after (.temperatureReading 1 5999) awake).zone 1).latch = .none := by decide +kernel

theorem test_massage_step_wraps :
    (after .stepTimerExpiry (massaging 5 none awake)).massage.counter = 0
      ∧ (after .stepTimerExpiry (massaging 4 none awake)).massage.counter = 5 := by decide +kernel

theorem test_set_then_memory_button_stores :
    (after (.memoryButtonPress 0) (after .setPress (seated 1000 awake))).switches.lastAction = .stored 0 := by decide +kernel

theorem test_an_unknown_code_is_answered :
    (after (.unknownCode 0x07 4 []) awake).link.sending = some (.reply 0x07 4 .unknown .none true) := by decide +kernel

theorem test_a_wrong_check_byte_makes_a_failed_frame :
    (after (.frameReceived [3, 1, 0x34, 7, 0, 0]) (sending awake)).link.owed = [.frameError 1] := by decide +kernel

theorem test_the_check_of_a_frame_is_seen : crc [0x31, 0x32, 0x33, 0x34, 0x35, 0x36, 0x37, 0x38, 0x39] = 0x29B1 := by decide +kernel

/-- A pulse of the brace-ack line runs on when the mode is set for the next brace (R151, R168). -/
theorem test_an_ack_pulse_outlives_its_mode :
    ({ awake with brace := { awake.brace with ackMode := .off, ackPulse := some 50 } } : State).ackLine = true := by decide +kernel

/-- An expiry that finds HOST_SILENT raised posts the FAULT notice as well (R180). -/
theorem test_every_silence_expiry_posts_fault :
    (after .silenceTimerExpiry { sending awake with link := { (sending awake).link with
      hostSilent := true, silenceLeft := some 1 } }).link.pendingNotices[NoticeKind.fault.index] = true := by decide +kernel

/-- Two members of a group without wait that complete at their start are both done before the chain goes on (R69). -/
def completing : State :=
  let s := low (queued [⟨0, .plan, .targeted, .target 1000, some 1⟩, ⟨1, .plan, .targeted, .target 1000, some 1⟩] (seated 1000 awake))
  { s with
    claims := { s.claims with owners := (s.claims.owners.set 0 .plan).set 1 .plan }
    plans := { s.plans with
      table := (s.plans.table.set 0 (some (.move [⟨0, .absolute 1000⟩, ⟨1, .absolute 1000⟩] true false (some 1)))).set 1
        (some (.move [⟨0, .absolute 2000⟩] false true none))
      current := some { aPlan 1 none with entries := [⟨0, some 1000, .queued⟩, ⟨1, some 1000, .queued⟩], inFlight := [0, 1] } } }

theorem test_a_group_is_reported_whole :
    ((after (.supplyNormal 96) completing).plans.current.map fun p => (p.step, p.entries, p.inFlight))
        = some (some (.descriptor 1), [⟨0, some 2000, .started⟩], [0])
      ∧ (after (.supplyNormal 96) completing).owner 0 = .plan ∧ (after (.supplyNormal 96) completing).owner 1 = .none := by
  decide +kernel

theorem test_link_activity_wakes :
    (after .wake (after .linkActivity asleep)).power.state = .awake
      ∧ (after .wake (after .linkActivity asleep)).link.discarding = true := by decide +kernel

/-! ### States and operands that meet the hypotheses of the statements

Each theorem takes the hypotheses of one statement, clause by clause where it has several. -/

/-- The time statement: an empty queue, in SLEEP, in AWAKE, with a plan at a pause and without one. -/
theorem test_premises_EmptyQueueOnlyCountsTime :
    (asleep.pending = [] ∧ asleep.live = false)
      ∧ ((pausing 1 none awake).pending = [] ∧ (pausing 1 none awake).live = true)
      ∧ (pausing 1 none awake).plans.current = some (aPlan 1 (some 50)) ∧ awake.plans.current = none := by decide +kernel

/-- Each activity state, at both ends of the positions, and SLEEP. -/
theorem test_premises_HallEdgeCountsThePosition :
    (awake.agenda = [] ∧ awake.live = true ∧ awake.power.state ≠ .shuttingDown ∧ (awake.axis 0).activity = .idle
        ∧ (awake.axis 0).position = 0)
      ∧ ((latched .stall .faulted (seated 8191 awake)).agenda = [] ∧ (latched .stall .faulted (seated 8191 awake)).live = true
        ∧ ((latched .stall .faulted (seated 8191 awake)).axis 0).activity = .faulted
        ∧ ((latched .stall .faulted (seated 8191 awake)).axis 0).position = 8191)
      ∧ ((stopping aJog awake).agenda = [] ∧ (stopping aJog awake).live = true ∧ ((stopping aJog awake).axis 0).activity = .stopping)
      ∧ ((running .link aJog awake).live = true ∧ ((running .link aJog awake).axis 0).activity = .running
        ∧ ((after (.hallEdge 0) (running .link aJog awake)).axis 0).activity = .running)
      ∧ (asleep.agenda = [] ∧ asleep.power.state = .sleep) := by decide +kernel

/-- An edge that comes to the coast lead, and one that stays a count outside it. -/
theorem test_premises_CoastLeadEndsATargetedDrive :
    ((running .link (aMove 1007) (seated 1000 awake)).atEase
        ∧ ((running .link (aMove 1007) (seated 1000 awake)).axis 0).activity = .running
        ∧ ((running .link (aMove 1007) (seated 1000 awake)).axis 0).move = some (aMove 1007) ∧ (aMove 1007).target = some 1007
        ∧ Spec.apart (Spec.countedOn .plus 1000) 1007 = (aMove 1007).coastLead)
      ∧ ((running .link (aMove 1008) (seated 1000 awake)).atEase
        ∧ ((running .link (aMove 1008) (seated 1000 awake)).axis 0).activity = .running
        ∧ ((running .link (aMove 1008) (seated 1000 awake)).axis 0).move = some (aMove 1008)
        ∧ Spec.apart (Spec.countedOn .plus 1000) 1008 = (aMove 1008).coastLead + 1) := by decide +kernel

/-- A stall on an axis at rest, in both legs, on an unreferenced axis of SWITCH, and counted for the third time. -/
theorem test_premises_StallBrakesAndCounts :
    (awake.atEase ∧ (awake.axis 0).activity ≠ .running)
      ∧ ((running .link (aReference .leg1) awake).atEase
        ∧ ((running .link (aReference .leg1) awake).axis 0).activity = .running
        ∧ ((running .link (aReference .leg1) awake).axis 0).move = some (aReference .leg1) ∧ (aReference .leg1).leg = some .leg1)
      ∧ ((running .link (aReference .leg2) awake).axis 0).move = some (aReference .leg2)
      ∧ ((running .switch aJog awake).atEase ∧ ((running .switch aJog awake).axis 0).move = some aJog ∧ aJog.leg = none
        ∧ ((running .switch aJog awake).axis 0).referenced = false ∧ (running .switch aJog awake).owner 0 = .switch)
      ∧ ((running .link aJog (seated 1000 awake)).atEase ∧ ((running .link aJog (seated 1000 awake)).axis 0).move = some aJog
        ∧ ((running .link aJog (seated 1000 awake)).axis 0).referenced = true)
      ∧ ((running .link aJog awake).owner 0 ≠ .switch ∧ (running .link aJog awake).owner 0 ≠ .brace) := by decide +kernel

theorem test_premises_TripsAndLegLimitsStopTheAxis :
    ((running .link (aReference .leg1) awake).atEase
        ∧ ((running .link (aReference .leg1) awake).axis 0).moving = true
        ∧ ((running .link (aReference .leg1) awake).axis 0).bridge ≠ .off
        ∧ ((running .link (aReference .leg1) awake).axis 0).move = some (aReference .leg1)
        ∧ ((running .link (aReference .leg1) awake).axis 0).activity = .running)
      ∧ ((running .link (aReference .backoff) awake).atEase
        ∧ ((running .link (aReference .backoff) awake).axis 0).move = some (aReference .backoff)) := by decide +kernel

/-- Each of the three drives a settle begins, at the least travel and margin for the third. -/
theorem test_premises_SettleBeginsTheNextDrive :
    ((stopping { aMove 1009 with ended := some .coastLead } (seated 1000 awake)).atEase
        ∧ ((stopping { aMove 1009 with ended := some .coastLead } (seated 1000 awake)).axis 0).activity = .stopping
        ∧ ((stopping { aMove 1009 with ended := some .coastLead } (seated 1000 awake)).axis 0).latch = .none
        ∧ ((stopping { aMove 1009 with ended := some .coastLead } (seated 1000 awake)).axis 0).move
            = some { aMove 1009 with ended := some .coastLead }
        ∧ (aMove 1009).stopCause = none ∧ (aMove 1009).corrective = false
        ∧ (aMove 1009).tolerance < Spec.apart ((stopping (aMove 1009) (seated 1000 awake)).axis 0).position 1009)
      ∧ ((stopping { aReference .leg1 with ended := some .stall } awake).atEase
        ∧ ((stopping { aReference .leg1 with ended := some .stall } awake).axis 0).latch = .none
        ∧ ((stopping { aReference .leg1 with ended := some .stall } awake).axis 0).move
            = some { aReference .leg1 with ended := some .stall })
      ∧ ((stopping { aReference .leg2 with ended := some .stall } (seated 64 awake)).atEase
        ∧ ((stopping { aReference .leg2 with ended := some .stall } (seated 64 awake)).axis 0).move
            = some { aReference .leg2 with ended := some .stall }
        ∧ 64 ≤ ((stopping (aReference .leg2) (seated 64 awake)).axis 0).position
        ∧ 2 * ((stopping (aReference .leg2) (seated 64 awake)).axis 0).cfg.margin
            ≤ ((stopping (aReference .leg2) (seated 64 awake)).axis 0).position
        ∧ (aReference .leg2).tolerance < ((stopping (aReference .leg2) (seated 64 awake)).axis 0).cfg.margin) := by decide +kernel

/-- What the settle statement asks of a state, but for what ended the drive. -/
abbrev settles (m : Move) (s : State) : Prop :=
  s.atEase ∧ s.unclaimed ∧ (s.axis 0).activity = .stopping ∧ (s.axis 0).move = some m
    ∧ s.slotOf 0 = some ⟨0, .link, m.kind, m.ratedUnits⟩ ∧ s.owner 0 = .link

/-- Each way a LINK move ends: at the tolerance, in an end-stop, in a counted stall, stopped, and latched. -/
theorem test_premises_SettleEndsALinkMove :
    (settles { aMove 1008 with ended := some .coastLead } (stopping { aMove 1008 with ended := some .coastLead } (seated 1000 awake))
        ∧ Spec.apart ((stopping (aMove 1008) (seated 1000 awake)).axis 0).position 1008 = (aMove 1008).tolerance)
      ∧ settles { aJog with ended := some .endStop } (stopping { aJog with ended := some .endStop } awake)
      ∧ settles { aMove 1500 with ended := some .stall } (stopping { aMove 1500 with ended := some .stall } (seated 1000 awake))
      ∧ settles { aJog with ended := some .stopped, stopCause := some .owner }
          (stopping { aJog with ended := some .stopped, stopCause := some .owner } awake)
      ∧ settles { aJog with ended := some .tripped } (latched .overcurrent .stopping (stopping { aJog with ended := some .tripped } awake))
      ∧ ((latched .overcurrent .stopping (stopping { aJog with ended := some .tripped } awake)).axis 0).latch ≠ .none := by
  refine ⟨⟨?_, ?_⟩, ?_, ?_, ?_, ?_, ?_⟩ <;> decide +kernel

/-- The premise of that statement about the drive's end, for the move at the tolerance. -/
theorem test_premises_SettleEndsALinkMove_at_the_tolerance :
    ∀ target, (aMove 1008).target = some target → Spec.apart 1000 target ≤ (aMove 1008).tolerance := by
  intro target h
  have e : 1008 = target := Option.some.inj h
  subst e
  decide

theorem test_premises_CommandsNotTakenAreAnswered :
    (awake.awaits ∧ knownCodes.contains 0x07 = false)
      ∧ (State.reset.agenda = [] ∧ State.reset.power.state = .starting ∧ State.reset.power.held = false
        ∧ State.reset.link.discarding = false ∧ State.reset.link.lineLow = false ∧ State.reset.link.slot = .empty
        ∧ (Instr.vehicle 1 [0]).code = some 0x06 ∧ (Instr.vehicle 1 [0]).wf = true) := by decide +kernel

/-- The slot EMPTY; the slot full with no OVERRUN owed, and with one owed at the greatest count. -/
theorem test_premises_OverrunDiscardsTheCommand :
    ((sending awake).atEase ∧ (sending awake).link.discarding = false ∧ (sending awake).link.lineLow = false
        ∧ (sending awake).link.sending.isSome = true ∧ parseFrame (frameBytes 1 0x06 1 [0]).tail = some ⟨0x06, 1, [0]⟩
        ∧ (sending awake).link.slot = .empty)
      ∧ ((replying 0x06 awake).atEase ∧ (replying 0x06 awake).link.sending.isSome = true ∧ (replying 0x06 awake).link.slot ≠ .empty
        ∧ (replying 0x06 awake).link.owed = [])
      ∧ ((owing [.frameError 1, .overrun 1 2 255] (replying 0x06 awake)).atEase
        ∧ (owing [.frameError 1, .overrun 1 2 255] (replying 0x06 awake)).link.owed = [.frameError 1] ++ .overrun 1 2 255 :: []) := by
  decide +kernel

/-- In those queues no OVERRUN stands where the statement asks for none. -/
theorem test_premises_OverrunDiscardsTheCommand_no_overrun :
    (∀ k t n, Owed.overrun k t n ∉ (replying 0x06 awake).link.owed) ∧ ∀ k t n, Owed.overrun k t n ∉ [Owed.frameError 1] := by
  refine ⟨fun k t n h => ?_, fun k t n h => by simp at h⟩
  have e : (replying 0x06 awake).link.owed = [] := rfl
  rw [e] at h
  cases h

/-- LEG2 with a travel below 64, below twice the margin, and already within tolerance of travel less margin. -/
theorem test_premises_SettleEndsALinkMove_leg2 :
    (∃ s : State, settles { aReference .leg2 with ended := some .stall } s ∧ (s.axis 0).position = 63)
      ∧ (∃ s : State, settles { aReference .leg2 with ended := some .stall } s ∧ 64 ≤ (s.axis 0).position
        ∧ (s.axis 0).position < 2 * (s.axis 0).cfg.margin)
      ∧ ∃ s : State, settles { aReference .leg2 with ended := some .stall, tolerance := 16 } s ∧ (s.axis 0).cfg.margin ≤ 16
        ∧ 64 ≤ (s.axis 0).position :=
  ⟨⟨stopping { aReference .leg2 with ended := some .stall } (seated 63 awake), by decide +kernel⟩,
    ⟨{ stopping { aReference .leg2 with ended := some .stall } (seated 127 awake) with
        axes := (stopping { aReference .leg2 with ended := some .stall } (seated 127 awake)).axes.map fun x =>
          { x with cfg := { x.cfg with margin := 64 } } }, by decide +kernel⟩,
    ⟨stopping { aReference .leg2 with ended := some .stall, tolerance := 16 } (seated 64 awake), by decide +kernel⟩⟩

/-- Both ends of the selectors; an item of the table and none. -/
theorem test_premises_ReadingCommandsChangeNothing :
    awake.awaits ∧ (1 ≤ (1 : Byte).toNat ∧ (8 : Byte).toNat ≤ 8) ∧ readItem 1 7 = some (.ratedUnits 7) ∧ readConfigGet [1, 8] = none
      ∧ ∀ b : Byte, 1 ≤ b.toNat → b.toNat ≤ 8 → [9] ≠ [b] := by
  refine ⟨by decide +kernel, by decide, by decide +kernel, by decide +kernel, ?_⟩
  decide +kernel

/-- A trip changes the fault set while a frame is being sent. -/
theorem test_premises_FaultSetIsReadFromTheLatches :
    awake.awaits ∧ (sending (running .link aJog awake)).agenda = [] ∧ (sending (running .link aJog awake)).link.sending.isSome = true
      ∧ Spec.resetsOrEndsFrame (.overcurrentTrip 0) = false
      ∧ (after (.overcurrentTrip 0) (sending (running .link aJog awake))).noticeContent .fault
          ≠ (sending (running .link aJog awake)).noticeContent .fault := by decide +kernel

/-- The first and the last axis item, applied and not: at the end of the range, and where the brace sum meets the budget limit. -/
theorem test_premises_ConfigSetOfAnAxisItem :
    awake.awaits ∧ (1 ≤ (1 : Byte).toNat ∧ (6 : Byte).toNat ≤ 6) ∧ (7 : Byte).toNat = (7 : Fin 8).val
      ∧ Spec.axisItemReply awake 1 0 30 = .done ∧ Spec.axisItemReply awake 1 0 31 = .badParameter
      ∧ Spec.axisItemReply awake 1 7 12 = .done ∧ Spec.axisItemReply awake 1 7 13 = .badParameter
      ∧ Spec.axisItemReply awake 6 7 0xFFF0 = .done ∧ Spec.axisItemReply (running .link aJog awake) 5 0 16 = .busy
      ∧ Spec.axisItemReply (braceIn .holding awake) 6 7 0 = .refused := by decide +kernel

/-- The ends of the ranges of some items, an item that does not exist, and a brace item outside IDLE. -/
theorem test_premises_ConfigSetOfAnotherItem :
    awake.awaits ∧ (braceIn .holding awake).awaits ∧ 7 ≤ (40 : Byte).toNat ∧ (Spec.otherItem 40 0 0 awake.settings).isSome = true
      ∧ Spec.otherItem 40 0 1 awake.settings = none ∧ (Spec.otherItem 40 0 60 awake.settings).isSome = true
      ∧ Spec.otherItem 40 0 61 awake.settings = none ∧ (Spec.otherItem 24 5 4 awake.settings).isSome = true
      ∧ Spec.otherItem 24 0 4 awake.settings = none ∧ Spec.otherItem 0 0 0 awake.settings = none
      ∧ (Spec.otherItem 33 0 2 (braceIn .holding awake).settings).isSome = true := by decide +kernel

theorem test_premises_FaultClearOfAnAxis :
    (awake.awaits ∧ awake.unclaimed ∧ (awake.axis 0).latch = .none ∧ (0 : Byte).toNat = (0 : Fin 8).val)
      ∧ ((latched .stall .faulted awake).awaits ∧ (latched .stall .faulted awake).unclaimed
        ∧ ((latched .stall .faulted awake).axis 0).latch ≠ .none ∧ ((latched .stall .faulted awake).axis 0).activity = .faulted)
      ∧ ((latched .stall .stopping awake).awaits ∧ (latched .stall .stopping awake).unclaimed
        ∧ ((latched .stall .stopping awake).axis 0).latch ≠ .none ∧ ((latched .stall .stopping awake).axis 0).activity ≠ .faulted) := by
  decide +kernel

/-- Both sides of 45 °C and of 60 °C, and a zone without a temperature. -/
theorem test_premises_FaultClearOfAZone :
    (zoned .off (some 89) .overtemp awake).awaits ∧ ((zoned .off (some 89) .overtemp awake).zone 1).temperature = some 89
      ∧ (zoned .off (some 90) .overtemp awake).awaits ∧ (zoned .off none .sensor awake).awaits
      ∧ (zoned .off (some 119) .sensor awake).awaits ∧ (zoned .off (some 120) .sensor awake).awaits
      ∧ ((zoned .off (some 120) .sensor awake).zone 1).latch = .sensor ∧ (1 : Byte).toNat = (1 : Fin 4).val := by decide +kernel

theorem test_premises_FaultClearOfCellAndPump :
    (celled ⟨.support, 40, 20, .vent, 8000, .leak⟩ awake).awaits ∧ (celled ⟨.support, 40, 20, .vent, 8000, .leak⟩ awake).unclaimed
      ∧ ((celled ⟨.support, 40, 20, .vent, 8000, .leak⟩ awake).cell 3).latch = .leak ∧ awake.cells.pump ≠ .tripped
      ∧ (pumped .tripped [] awake).awaits ∧ (pumped .tripped [] awake).cells.pump = .tripped
      ∧ (3 : Byte).toNat = (3 : Fin 12).val ∧ (8 ≤ (8 : Byte).toNat ∧ 12 ≤ (12 : Byte).toNat ∧ 4 ≤ (4 : Byte).toNat) := by
  decide +kernel

/-- A leaking cell outside the queue, a half-kPa below its band and at the band's lower end. -/
theorem test_premises_FaultClearOfCellAndPump_band :
    (∃ s : State, s.awaits ∧ s.unclaimed ∧ (s.cell 3).latch = .leak ∧ 3 ∉ s.cells.queue ∧ (s.cell 3).pressure + 4 < (s.cell 3).target)
      ∧ ∃ s : State, s.awaits ∧ s.unclaimed ∧ (s.cell 3).latch = .leak ∧ 3 ∉ s.cells.queue
        ∧ (s.cell 3).target = (s.cell 3).pressure + 4 :=
  ⟨⟨celled ⟨.support, 40, 35, .vent, 8000, .leak⟩ awake, by decide +kernel⟩,
    ⟨celled ⟨.support, 40, 36, .hold, 8000, .leak⟩ awake, by decide +kernel⟩⟩

/-- Each reply of the four tables. -/
theorem test_premises_ClaimCommandsFollowTheirTables :
    awake.awaits ∧ Spec.moveReply (seated 1000 awake) 0 16 = .accepted ∧ Spec.moveReply (seated 1000 awake) 7 3480 = .accepted
      ∧ Spec.moveReply (seated 1000 awake) 7 3481 = .badParameter ∧ Spec.moveReply (seated 1000 awake) 8 16 = .badParameter
      ∧ Spec.moveReply (running .link (aMove 1500) (seated 1000 awake)) 0 16 = .busy ∧ Spec.moveReply awake 0 16 = .refused
      ∧ Spec.jogReply awake 7 1 = .accepted ∧ Spec.jogReply awake 7 2 = .badParameter
      ∧ Spec.referenceReply awake 7 = .accepted ∧ Spec.referenceReply awake 8 = .badParameter
      ∧ Spec.haltReply awake 255 = .done ∧ Spec.haltReply awake 8 = .badParameter
      ∧ Spec.haltReply (running .switch aJog awake) 0 = .busy := by decide +kernel

/-- Starts at once from a referenced axis, at the tolerance and a count beyond it, and from one that is not referenced. -/
theorem test_premises_AcceptedClaimsStartTheirAxis :
    ((seated 1000 awake).awaits ∧ Spec.freeToStart (seated 1000 awake) 0
        ∧ Spec.moveReply (seated 1000 awake) 0 1009 = .accepted
        ∧ ((seated 1000 awake).axis 0).cfg.tolerance < Spec.apart ((seated 1000 awake).axis 0).position 1009
        ∧ Spec.moveReply (seated 1000 awake) 0 1008 = .accepted
        ∧ Spec.apart ((seated 1000 awake).axis 0).position 1008 ≤ ((seated 1000 awake).axis 0).cfg.tolerance
        ∧ ((seated 1000 awake).axis 0).travel = some 3496
        ∧ ((seated 1000 awake).axis 0).position + ((seated 1000 awake).axis 0).cfg.tolerance < 3496 - ((seated 1000 awake).axis 0).cfg.margin
        ∧ ((seated 1000 awake).axis 0).cfg.margin + ((seated 1000 awake).axis 0).cfg.tolerance < ((seated 1000 awake).axis 0).position)
      ∧ (awake.awaits ∧ Spec.freeToStart awake 0 ∧ (awake.axis 0).referenced = false ∧ (1 : Byte).toNat ≤ 1) := by decide +kernel

theorem test_premises_HaltBrakesALinkMove :
    (running .link aJog awake).awaits ∧ (running .link aJog awake).owner 0 = .link
      ∧ (∀ e ∈ (running .link aJog awake).claims.queue, e.axis = 0 → e.owner ≠ .link)
      ∧ ((running .link aJog awake).axis 0).activity = .running ∧ ((running .link aJog awake).axis 0).move = some aJog
      ∧ (running .link aJog awake).slotOf 0 = some ⟨0, .link, .jog, 16⟩ := by decide +kernel

/-- The ends of the range, the brace sum (34), and what an axis holds above it. -/
theorem test_premises_SupplyLimitFollowsItsTable :
    awake.awaits ∧ braceSum awake.axes = 34 ∧ (running .link aJog (filling awake)).motorUnits + (filling awake).gov.pumpGrant = 24 := by
  decide +kernel

theorem test_premises_SupplyStateFollowsTheVoltage :
    (filling awake).atEase ∧ (filling awake).gov.supply = .normal ∧ (filling awake).claims.queue = []
      ∧ (filling awake).braceCellQueued = false := by decide +kernel

/-- A load of one PAUSE descriptor at the last index, and one out of range. -/
theorem test_premises_PlanLoadWritesWhole :
    awake.awaits ∧ readPlanLoad (1 :: 31 :: 2 :: 0 :: 255 :: 0 :: 1 :: List.replicate 8 0) = none
      ∧ readPlanLoad [1, 31, 0, 0, 0, 0, 0, 0, 0, 0, 0, 0, 0, 0] = some [(31, none)]
      ∧ awake.plans.current = none ∧ (pausing 1 none awake).awaits ∧ (pausing 1 none awake).plans.current.isSome = true := by
  decide +kernel

/-- A plan at a PAUSE and one at a MOVE of axis 0, with CURRENT empty, and one that waits behind CURRENT. -/
def planned (d : Descriptor) (s : State) : State := { s with plans := { s.plans with table := s.plans.table.set 31 (some d) } }

theorem test_premises_PlanRunFollowsItsTable :
    ((planned (.pause 5 none) awake).awaits ∧ (planned (.pause 5 none) awake).plans.table[31] = some (.pause 5 none)
        ∧ (planned (.pause 5 none) awake).plans.current = none ∧ (31 : Byte).toNat < 32)
      ∧ ((planned (.move [⟨0, .absolute 1009⟩] false true none) (seated 1000 awake)).awaits
        ∧ Spec.freeToStart (planned (.move [⟨0, .absolute 1009⟩] false true none) (seated 1000 awake)) 0
        ∧ (planned (.move [⟨0, .absolute 1009⟩] false true none) (seated 1000 awake)).plans.table[31]
            = some (.move [⟨0, .absolute 1009⟩] false true none)
        ∧ ((seated 1000 awake).axis 0).referenced = true ∧ ((seated 1000 awake).axis 0).travel = some 3496)
      ∧ ((planned (.pause 5 none) (pausing 1 none awake)).awaits ∧ (planned (.pause 5 none) (pausing 1 none awake)).plans.current.isSome = true
        ∧ (planned (.pause 5 none) (pausing 1 none awake)).plans.next = none) := by decide +kernel

theorem test_premises_PlanCancelEmptiesItsTarget :
    awake.awaits ∧ awake.plans.next = none ∧ awake.plans.current = none ∧ (pausing 1 none awake).awaits
      ∧ (pausing 1 none awake).plans.current = some (aPlan 1 (some 50)) ∧ (aPlan 1 (some 50)).state = .running
      ∧ (aPlan 1 (some 50)).inFlight = [] ∧ (pausing 1 none awake).claims.queue = [] ∧ (pausing 1 none awake).brace.state = .idle
      ∧ (∀ a : Fin 8, (pausing 1 none awake).owner a ≠ .plan ∧ (pausing 1 none awake).movingFor a .plan = false)
      ∧ (pausing 1 none awake).plans.next = none := by decide +kernel

/-- A grouped MOVE of axes 0 and 1 with two drive slots free, and with one. -/
theorem test_premises_PlanRunFollowsItsTable_group :
    let d : Descriptor := .move [⟨0, .absolute 1009⟩, ⟨1, .absolute 1009⟩] true true none
    (∃ s : State, s.awaits ∧ s.brace.state = .idle ∧ s.plans.vehicle = .parked ∧ s.plans.table[31] = some d ∧ s.plans.current = none
        ∧ s.claims.queue = [] ∧ s.gov.supply = .normal ∧ s.power.standing = .invalid ∧ s.braceCellQueued = false
        ∧ ((s.axis 0).activity = .idle ∧ s.owner 0 = .none ∧ s.slotOf 0 = none ∧ (s.axis 0).travel = some 3496)
        ∧ ((s.axis 1).activity = .idle ∧ s.owner 1 = .none ∧ s.slotOf 1 = none ∧ (s.axis 1).travel = some 3496)
        ∧ (s.axis 0).cfg.tolerance < Spec.apart (s.axis 0).position 1009 ∧ (s.axis 0).cfg.margin ≤ 1009
        ∧ (s.axis 0).cfg.ratedUnits + (s.axis 1).cfg.ratedUnits + s.motorUnits ≤ s.gov.limit
        ∧ s.claims.slots[0] = none ∧ s.claims.slots[1] = none)
      ∧ ∃ s : State, s.awaits ∧ s.plans.table[31] = some d ∧ s.claims.slots[0] = none ∧ s.claims.slots[1].isSome = true
        ∧ s.claims.slots[2].isSome = true ∧ s.slotOf 0 = none ∧ s.slotOf 1 = none
        ∧ (s.axis 0).cfg.ratedUnits + (s.axis 1).cfg.ratedUnits + s.motorUnits ≤ s.gov.limit :=
  ⟨⟨planned (.move [⟨0, .absolute 1009⟩, ⟨1, .absolute 1009⟩] true true none) (seated 1000 awake), by decide +kernel⟩,
    ⟨{ planned (.move [⟨0, .absolute 1009⟩, ⟨1, .absolute 1009⟩] true true none) (seated 1000 awake) with
        claims := { awake.claims with slots := #v[none, some ⟨6, .switch, .jog, 2⟩, some ⟨7, .switch, .jog, 2⟩] } }, by decide +kernel⟩⟩

/-- An ENDING plan; a plan with a move in flight; and a plan at rest with another in NEXT at a pause. -/
theorem test_premises_PlanCancelEmptiesItsTarget_more :
    (∃ (s : State) (p : Plan), s.awaits ∧ s.plans.current = some p ∧ p.state = .ending ∧ s.plans.next.isSome = true)
      ∧ (∃ (s : State) (p : Plan), s.awaits ∧ s.plans.current = some p ∧ p.state = .running ∧ s.claims.queue = [] ∧ s.brace.state = .idle
        ∧ (∀ a : Fin 8, s.claims.held[a] = ⟨false, false, false⟩) ∧ p.inFlight ≠ [] ∧ (s.axis 0).activity = .running
        ∧ s.movingFor 0 .plan = true ∧ (s.axis 0).move = some (aMove 1500))
      ∧ ∃ (s : State) (p q : Plan), s.awaits ∧ s.plans.current = some p ∧ p.state = .running ∧ p.inFlight = [] ∧ s.plans.next = some q
        ∧ q.kind = .chain 0 ∧ q.step = none ∧ s.plans.table[0] = some (.pause 5 none)
        ∧ ∀ a : Fin 8, s.owner a ≠ .plan ∧ s.movingFor a .plan = false :=
  ⟨⟨{ awake with plans := { awake.plans with
        current := some { aPlan 1 none with state := .ending }, next := some { aPlan 0 none with state := .waiting } } }, _,
      by decide +kernel, rfl, by decide +kernel⟩,
    ⟨{ running .plan (aMove 1500) (seated 1000 awake) with plans := { awake.plans with
        current := some { aPlan 1 none with inFlight := [0] } } }, _, by decide +kernel, rfl, by decide +kernel⟩,
    ⟨{ pausing 1 none awake with plans := { (pausing 1 none awake).plans with
        next := some { aPlan 0 none with state := .waiting, step := none } } }, _, _, by decide +kernel, rfl, by decide +kernel,
      by decide +kernel, rfl, by decide +kernel⟩⟩

theorem test_premises_VehicleMovingEndsThePlans :
    (pausing 1 none awake).awaits ∧ (pausing 1 none awake).plans.current ≠ none ∧ (awake.plans.current = none → awake.plans.next = none)
      ∧ (pausing 1 none awake).plans.vehicle = .parked ∧ (1 : Byte).toNat ≤ 1 := by decide +kernel

/-- The end of a chain, and the sixty-fourth step with another to come. -/
theorem test_premises_PauseExpiryEndsAChain :
    ((pausing 1 none awake).atEase ∧ (pausing 1 none awake).plans.current = some (aPlan 1 (some 50))
        ∧ (aPlan 1 (some 50)).state = .running ∧ (aPlan 1 (some 50)).step = some (.descriptor 0)
        ∧ (pausing 1 none awake).plans.table[0] = some (.pause 5 none) ∧ (aPlan 1 (some 50)).pauseLeft = some 50
        ∧ (aPlan 1 (some 50)).inFlight = [] ∧ (aPlan 1 (some 50)).atEnd = false ∧ (pausing 1 none awake).plans.next = none
        ∧ (pausing 1 none awake).claims.queue = [] ∧ (pausing 1 none awake).brace.state = .idle
        ∧ ∀ a : Fin 8, (pausing 1 none awake).owner a ≠ .plan ∧ (pausing 1 none awake).movingFor a .plan = false)
      ∧ ((pausing 64 (some 0) awake).atEase ∧ (pausing 64 (some 0) awake).plans.table[0] = some (.pause 5 (some 0))
        ∧ (pausing 64 (some 0) awake).plans.current = some (aPlan 64 (some 50)) ∧ 64 ≤ (aPlan 64 (some 50)).steps) := by
  decide +kernel

/-- Both ends of the slots and of the masks, a seat with nothing to store, and one that moves. -/
theorem test_premises_ProfileStoreCapturesTheSeat :
    awake.awaits ∧ (6 : Byte).toNat = (5 : Fin 6).val + 1 ∧ 6 < (7 : Byte).toNat
      ∧ (0x07 : Byte).toNat * 256 + (0xFF : Byte).toNat = 2047 ∧ (0x08 : Byte).toNat * 256 + (0 : Byte).toNat = 2048
      ∧ Spec.storedRecord awake 5 (Spec.maskBit 0 1) = .empty ∧ Spec.storedRecord (seated 1000 awake) 5 (Spec.maskBit 0 1) ≠ .empty
      ∧ (∃ a : Fin 8, ((running .link aJog awake).axis a).activity = .running ∨ ((running .link aJog awake).axis a).activity = .stopping) := by
  decide +kernel

/-- A record of no field but the position of axis 0, given as a payload. -/
def aRecord (slot : Byte) : List Byte := slot :: 0 :: 0 :: 1 :: 0x03 :: 0xE8 :: List.replicate 27 0

theorem test_premises_ProfileWriteEraseAndRead :
    awake.awaits ∧ (readProfileWrite (aRecord 6)).isSome = true ∧ readProfileWrite (aRecord 7) = none
      ∧ (6 : Byte).toNat = (5 : Fin 6).val + 1 ∧ ((awake.profile 0).state = .empty ∧ (awake.profile 0).persisted = false)
      ∧ awake.store.job = none ∧ awake.store.pendingParking = false ∧ (∀ q : Fin 6, awake.store.pendingProfiles[q] = false)
      ∧ (storing (.profile 1 .empty) awake).awaits ∧ (storing (.profile 1 .empty) awake).store.job ≠ none := by decide +kernel

theorem test_premises_RecallFollowsItsTable :
    (profiled (pausing 1 none awake)).awaits ∧ (profiled (pausing 1 none awake)).plans.current.isSome = true
      ∧ (profiled (pausing 1 none awake)).plans.next = none ∧ (profiled (pausing 1 none awake)).plans.vehicle = .parked
      ∧ ((profiled (pausing 1 none awake)).profile 0).state = .valid
      ∧ ((profiled (pausing 1 none awake)).profile 0).content.lumbar = none
      ∧ ((profiled (pausing 1 none awake)).profile 0).content.heat = none
      ∧ ((profiled (pausing 1 none awake)).profile 0).content.massage = none ∧ (1 : Byte).toNat = (0 : Fin 6).val + 1 := by
  decide +kernel

theorem test_premises_WriteEndUpdatesTheImage :
    (awake.atEase ∧ awake.store.job = none)
      ∧ ((storing (.profile 5 .empty) awake).atEase ∧ (storing (.profile 5 .empty) awake).store.job = some (.profile 5 .empty))
      ∧ ((storing (.parking .cleared) { awake with power := { awake.power with standing := .invalidating } }).atEase
        ∧ ParkingRecord.cleared.valid = false
        ∧ (storing (.parking .cleared) { awake with power := { awake.power with standing := .invalidating } }).power.standing = .invalidating
        ∧ (storing (.parking .cleared) awake).store.pendingParking = false ∧ (storing (.parking .cleared) awake).claims.queue = []) := by
  decide +kernel

/-- A write that ends with the parking record pending, and with the last of the slots pending. -/
theorem test_premises_WriteEndUpdatesTheImage_next :
    (∃ s : State, s.atEase ∧ s.store.job = some (.profile 5 .empty) ∧ s.store.pendingParking = true)
      ∧ ∃ s : State, s.atEase ∧ s.store.job = some (.profile 5 .empty) ∧ s.store.pendingParking = false
        ∧ s.store.pendingProfiles[5] = true ∧ ∀ r : Fin 6, r < 5 → s.store.pendingProfiles[r] = false :=
  ⟨⟨{ awake with store := { awake.store with job := some (.profile 5 .empty), pendingParking := true } }, by decide +kernel⟩,
    ⟨{ awake with store := { awake.store with
        job := some (.profile 5 .empty), pendingProfiles := awake.store.pendingProfiles.set 5 true } }, by decide +kernel⟩⟩

/-- A press ignored in BRACING, alone and opposed; presses and releases of the wrong level; releases of a plain contact, of an
opposed pair, and of a jog HELD and ADMITTED. -/
theorem test_premises_IgnoredPressesAndReleases :
    ((braceIn .bracing awake).atEase ∧ (braceIn .bracing awake).contact (.axis 0 .plus) = ⟨false, false⟩
        ∧ ((braceIn .bracing awake).contact (.axis 0 .minus)).pressed = false)
      ∧ ((contacted (.axis 0 .minus) ⟨true, false⟩ (braceIn .holding awake)).atEase
        ∧ (contacted (.axis 0 .minus) ⟨true, false⟩ (braceIn .holding awake)).contact (.axis 0 .plus) = ⟨false, false⟩
        ∧ ((contacted (.axis 0 .minus) ⟨true, false⟩ (braceIn .holding awake)).contact (.axis 0 .minus)).pressed = true
        ∧ ((contacted (.axis 0 .minus) ⟨true, false⟩ (braceIn .holding awake)).pair 0).jog = .none)
      ∧ ((contacted (.mem 2) ⟨true, false⟩ awake).atEase ∧ ((contacted (.mem 2) ⟨true, false⟩ awake).contact (.mem 2)).pressed = true
        ∧ (awake.contact (.mem 2)).pressed = false)
      ∧ ((paired ⟨true, .none⟩ (contacted (.axis 0 .plus) ⟨true, false⟩ awake)).atEase
        ∧ ((paired ⟨true, .none⟩ (contacted (.axis 0 .plus) ⟨true, false⟩ awake)).contact (.axis 0 .plus)).pressed = true
        ∧ ((paired ⟨true, .none⟩ (contacted (.axis 0 .plus) ⟨true, false⟩ awake)).pair 0).opposed = true)
      ∧ (paired ⟨false, .held .plus⟩ (contacted (.axis 0 .plus) ⟨true, false⟩ awake)).pair 0 = ⟨false, .held .plus⟩
      ∧ ((paired ⟨false, .admitted .plus⟩ (contacted (.axis 0 .plus) ⟨true, false⟩ (running .switch aJog awake))).atEase
        ∧ (paired ⟨false, .admitted .plus⟩ (contacted (.axis 0 .plus) ⟨true, false⟩ (running .switch aJog awake))).pair 0
            = ⟨false, .admitted .plus⟩
        ∧ ((running .switch aJog awake).axis 0).activity = .running ∧ ((running .switch aJog awake).axis 0).move = some aJog
        ∧ (running .switch aJog awake).slotOf 0 = some ⟨0, .switch, .jog, 16⟩
        ∧ (∀ e ∈ (running .switch aJog awake).claims.queue, e.axis = 0 → e.owner ≠ .switch)) := by decide +kernel

theorem test_premises_AxisPressStartsAJog :
    (Spec.freeToStart awake 0 ∧ awake.contact (.axis 0 .plus) = ⟨false, false⟩
        ∧ (awake.contact (.axis 0 (oppositeDir .plus))).pressed = false ∧ (awake.axis 0).referenced = false)
      ∧ (Spec.freeToStart (seated 1000 awake) 0 ∧ ((seated 1000 awake).axis 0).referenced = true
        ∧ ((seated 1000 awake).axis 0).travel = some 3496
        ∧ ((seated 1000 awake).axis 0).position + ((seated 1000 awake).axis 0).cfg.tolerance < 3496 - ((seated 1000 awake).axis 0).cfg.margin
        ∧ ((seated 1000 awake).axis 0).cfg.margin + ((seated 1000 awake).axis 0).cfg.tolerance < ((seated 1000 awake).axis 0).position) := by
  decide +kernel

/-- A pair that is opposed still, its other contact RELEASED. -/
theorem test_premises_AxisPressStartsAJog_opposed :
    ∃ s : State, Spec.freeToStart s 0 ∧ s.contact (.axis 0 .plus) = ⟨false, false⟩ ∧ (s.contact (.axis 0 .minus)).pressed = false
      ∧ (s.pair 0).opposed = true :=
  ⟨paired ⟨true, .none⟩ awake, by decide +kernel⟩

/-- The store window open. -/
def windowed (s : State) : State := { s with switches := { s.switches with window := some 1 } }

theorem test_premises_SetAndMemoryButtons :
    (awake.atEase ∧ awake.brace.state = .idle ∧ awake.contact .set = ⟨false, false⟩ ∧ awake.plans.current = none
        ∧ awake.contact (.mem 0) = ⟨false, false⟩ ∧ awake.switches.window = none ∧ (awake.profile (Spec.slotOfButton 0)).state ≠ .valid)
      ∧ ((windowed (seated 1000 awake)).atEase ∧ (windowed (seated 1000 awake)).switches.window.isSome = true
        ∧ (∀ a : Fin 8, ((windowed (seated 1000 awake)).axis a).moving = false)
        ∧ Spec.storedRecord (windowed (seated 1000 awake)) (Spec.slotOfButton 0) (fun i => decide (i < 9)) ≠ .empty)
      ∧ ((windowed (running .link aJog awake)).atEase ∧ ∃ a : Fin 8, ((windowed (running .link aJog awake)).axis a).moving = true)
      ∧ ((profiled awake).atEase ∧ (profiled awake).plans.vehicle = .parked
        ∧ ((profiled awake).profile (Spec.slotOfButton 0)).state = .valid)
      ∧ ((pausing 1 none awake).atEase ∧ (pausing 1 none awake).plans.current = some (aPlan 1 (some 50))
        ∧ (aPlan 1 (some 50)).state = .running ∧ (pausing 1 none awake).switches.window = none
        ∧ (pausing 1 none awake).claims.queue = []
        ∧ ∀ a : Fin 8, (pausing 1 none awake).claims.held[a] = ⟨false, false, false⟩) := by decide +kernel

/-- Readings on each side of the band and of the target, in the queue and outside, and a LEAK. -/
theorem test_premises_PressureReadingRegulates :
    ((celled ⟨.support, 40, 40, .hold, 0, .none⟩ awake).atEase
        ∧ ((celled ⟨.support, 40, 40, .hold, 0, .none⟩ awake).cell 3).latch = .none
        ∧ (3 : Fin 12) ∉ (celled ⟨.support, 40, 40, .hold, 0, .none⟩ awake).cells.queue
        ∧ ((celled ⟨.support, 40, 40, .hold, 0, .none⟩ awake).cell 3).valve ≠ .vent
        ∧ ((celled ⟨.support, 40, 40, .hold, 0, .none⟩ awake).cell 3).target ≤ min 36 120 + 4
        ∧ min 35 120 + 4 < ((celled ⟨.support, 40, 40, .hold, 0, .none⟩ awake).cell 3).target
        ∧ (celled ⟨.support, 40, 40, .hold, 0, .none⟩ awake).unclaimed)
      ∧ (((celled ⟨.support, 40, 50, .vent, 0, .none⟩ awake).cell 3).valve = .vent
        ∧ (3 : Fin 12) ∉ (celled ⟨.support, 40, 50, .vent, 0, .none⟩ awake).cells.queue
        ∧ ((celled ⟨.support, 40, 50, .vent, 0, .none⟩ awake).cell 3).owner ≠ .brace)
      ∧ ((filling awake).atEase ∧ (filling awake).unclaimed ∧ ((filling awake).cell 3).latch = .none ∧ (3 : Fin 12) ∈ (filling awake).cells.queue
        ∧ min 39 120 < ((filling awake).cell 3).target ∧ ((filling awake).cell 3).target ≤ min 40 120)
      ∧ ((celled ⟨.support, 40, 20, .vent, 8000, .leak⟩ awake).cell 3).latch = .leak := by decide +kernel

/-- R117: a reading of a VENT cell below its band holds it outside the queue, and the next lets it join; a raised target lets it join
at once. -/
theorem test_vent_below_the_band :
    ((after (.pressureReading 3 35) (celled ⟨.support, 40, 50, .vent, 0, .none⟩ awake)).cell 3).valve = .hold
      ∧ (after (.pressureReading 3 35) (celled ⟨.support, 40, 50, .vent, 0, .none⟩ awake)).cells.queue = []
      ∧ (after (.pressureReading 3 35)
          (after (.pressureReading 3 35) (celled ⟨.support, 40, 50, .vent, 0, .none⟩ awake))).cells.queue = [3]
      ∧ ((celled ⟨.support, 40, 50, .vent, 0, .none⟩ awake).setTarget 3 90 .support).cells.queue = [3] := by decide +kernel

theorem test_premises_PumpAndLeakEvents :
    (awake.atEase ∧ awake.cells.pump ≠ .running ∧ awake.cells.pump = .idle)
      ∧ ((filling awake).atEase ∧ (filling awake).unclaimed ∧ (filling awake).cells.pump = .running
        ∧ (filling awake).cells.queue.head? = some 3 ∧ (filling awake).braceCellQueued = false)
      ∧ ((pumped .resting [] awake).atEase ∧ (pumped .resting [] awake).cells.pump = .resting ∧ (pumped .resting [] awake).cells.queue = [])
      ∧ ((pumped .resting [3] awake).atEase ∧ (pumped .resting [3] awake).cells.queue.head? = some 3
        ∧ (pumped .resting [3] awake).gov.supply = .normal ∧ (pumped .resting [3] awake).gov.regime = false
        ∧ (pumped .resting [3] awake).gov.pumpRated + (pumped .resting [3] awake).motorUnits ≤ (pumped .resting [3] awake).gov.limit) := by
  decide +kernel

/-- The greatest target, one beyond it, a cell that is no support cell, and a bolster named during a brace. -/
theorem test_premises_CellSetFollowsItsTable :
    awake.awaits ∧ awake.unclaimed ∧ readCellSet [1, 8, 120] = some [(8, 120)] ∧ readCellSet [1, 8, 121] = none
      ∧ readCellSet [1, 7, 0] = none
      ∧ (braceIn .holding awake).awaits ∧ (braceIn .holding awake).brace.state ≠ .idle
      ∧ readCellSet [2, 10, 0, 11, 0] = some [(10, 0), (11, 0)] := by decide +kernel

theorem test_premises_PatternCommandsFollowTheirTables :
    awake.awaits ∧ 8 ≤ (8 : Byte).toNat ∧ (7 : Byte).toNat = (7 : Fin 8).val ∧ (List.replicate 16 (0 : Byte)).length = 16
      ∧ (massaging 0 none awake).awaits ∧ (massaging 0 none awake).massage.active = some 0 ∧ (awake.pattern 7).state = .empty := by
  decide +kernel

theorem test_premises_MassageStartBeginsASession :
    awake.awaits ∧ awake.unclaimed ∧ readMassageStart [0, 6] = none ∧ (awake.pattern 0).state = .ready ∧ (awake.pattern 7).state ≠ .ready
      ∧ (0 : Byte).toNat = (0 : Fin 8).val ∧ 1 ≤ (5 : Byte).toNat ∧ (5 : Byte).toNat - 1 < 5 := by decide +kernel

/-- The engine OFF and RUNNING; a step inside the period, and the last one with a staged slot that is READY and with none. -/
theorem test_premises_MassageHaltsAndSteps :
    (awake.awaits ∧ awake.atEase ∧ awake.massage.running = false)
      ∧ ((massaging 4 none awake).awaits ∧ (massaging 4 none awake).unclaimed ∧ (massaging 4 none awake).massage.running = true
        ∧ (massaging 4 none awake).massage.active = some 0 ∧ (massaging 4 none awake).massage.intensity = some 1
        ∧ (massaging 4 none awake).massage.counter + 1 < ((massaging 4 none awake).pattern 0).period)
      ∧ ((massaging 5 (some 1) awake).unclaimed ∧ ((massaging 5 (some 1) awake).pattern 0).period ≤ (massaging 5 (some 1) awake).massage.counter + 1
        ∧ (massaging 5 (some 1) awake).massage.staged = some 1 ∧ ((massaging 5 (some 1) awake).pattern 1).state = .ready)
      ∧ (massaging 5 none awake).massage.staged = none := by decide +kernel

/-- Both ends of a manual duty; a boost above the temperature and at it. -/
theorem test_premises_HeatSetWritesTheModes :
    awake.awaits ∧ readHeatSet [1, 3, 1, 100] = some [(3, .manual 100)] ∧ readHeatSet [1, 3, 1, 101] = none
      ∧ (readHeatSet [1, 1, 3, 60]).isSome = true
      ∧ ((zoned .off (some 60) .none awake).awaits ∧ ((zoned .off (some 60) .none awake).zone 1).temperature = some 60)
      ∧ ((zoned .off (some 59) .none awake).zone 1).temperature = some 59 := by decide +kernel

/-- The ends of the plausible readings, and one hundredth beyond; a zone in BOOST and one within a period. -/
theorem test_premises_ZoneEventsFollowTheirRules :
    awake.atEase ∧ ((-4000 : Int) ≤ -4000 ∧ (12000 : Int) ≤ 12000 ∧ (-4001 : Int) < -4000 ∧ (12000 : Int) < 12001)
      ∧ ((after (.temperatureReading 1 6000) awake).zone 1).latch ≠ (awake.zone 1).latch
      ∧ ((zoned (.boost 60) (some 40) .none awake).atEase ∧ ((zoned (.boost 60) (some 40) .none awake).zone 1).mode = .boost 60)
      ∧ ((after (.pwmPeriodStart 1) awake).atEase ∧ ((after (.pwmPeriodStart 1) awake).zone 1).periodTime = some 0
        ∧ ((after (.pwmPeriodStart 1) awake).zone 1).applied < 100)
      ∧ (awake.zone 1).periodTime = none ∧ (awake.zone 1).mode = .off := by decide +kernel

/-- A bolster of SUPPORT in the fill queue at 100, whose target becomes 90, with the pump WAITING. -/
def overfull (p : PumpState) (pressure : Nat) : State :=
  let s := pumped p [10] awake
  { s with cells := { s.cells with cells := s.cells.cells.set 10 ⟨.support, 120, pressure, .hold, 0, .none⟩ } }

/-- R154 step 7: such a bolster is FILLING while it vents from above its new band, and HELD at the band's upper edge. -/
theorem test_brace_set_of_a_queued_bolster_above_its_band :
    (after (.brace 1 []) (overfull .waiting 100)).brace.bolster10 = .filling
      ∧ (after (.brace 1 []) (overfull .waiting 95)).brace.bolster10 = .filling
      ∧ (after (.brace 1 []) (overfull .waiting 94)).brace.bolster10 = .held
      ∧ (after (.brace 1 []) (overfull .waiting 86)).brace.bolster10 = .held
      ∧ (after (.brace 1 []) (overfull .waiting 85)).brace.bolster10 = .filling
      ∧ ((after (.brace 1 []) (overfull .waiting 100)).cell 10).valve = .vent
      ∧ (after (.pressureReading 10 90) (after (.brace 1 []) (overfull .waiting 100))).brace.bolster10 = .held := by decide +kernel

/-- The bolster at 85 half-kPa below its band with the pump TRIPPED, and at the two edges of its band with the pump WAITING. -/
theorem test_premises_BraceBeginsFromIdle_bolsters :
    ((overfull .tripped 85).awaits ∧ (overfull .tripped 85).unclaimed ∧ (overfull .tripped 85).gov.regime = false
        ∧ (overfull .tripped 85).cells.pump = .tripped ∧ ((overfull .tripped 85).cell 10).owner ≠ .brace
        ∧ ((overfull .tripped 85).cell 10).latch = .none
        ∧ ((overfull .tripped 85).cell 10).pressure + 4 < (overfull .tripped 85).brace.bolsterPressure)
      ∧ ((overfull .waiting 94).awaits ∧ (overfull .waiting 94).unclaimed ∧ (overfull .waiting 94).gov.regime = false
        ∧ (overfull .waiting 94).cells.pump ≠ .tripped
        ∧ ((overfull .waiting 94).cell 10).pressure ≤ (overfull .waiting 94).brace.bolsterPressure + 4) := by decide +kernel

/-- A brace from rest, over a running move of LINK, over massage, and an activation of the line at its level. -/
theorem test_premises_BraceBeginsFromIdle :
    (awake.awaits ∧ awake.unclaimed ∧ awake.gov.regime = false ∧ awake.brace.lineActive = false ∧ (awake.axis 0).cfg.braceTarget = .none)
      ∧ ((running .link aJog awake).awaits ∧ (running .link aJog awake).unclaimed
        ∧ ((running .link aJog awake).axis 0).activity = .running ∧ ((running .link aJog awake).axis 0).move = some aJog
        ∧ (running .link aJog awake).slotOf 0 = some ⟨0, .link, .jog, 16⟩)
      ∧ ((massaging 0 none awake).awaits ∧ (massaging 0 none awake).unclaimed ∧ (massaging 0 none awake).massage.running = true)
      ∧ ({ awake with brace := { awake.brace with lineActive := true } } : State).unclaimed := by decide +kernel

theorem test_premises_BraceCommandsFollowTheirTables :
    (∀ b ∈ [BraceState.idle, .bracing, .braced, .holding, .restoring], (braceIn b awake).awaits ∧ (braceIn b awake).brace.state = b)
      ∧ Spec.releaseReply (braceIn .bracing awake) = .accepted ∧ Spec.releaseReply (braceIn .braced awake) = .accepted
      ∧ Spec.releaseReply (braceIn .restoring awake) = .done ∧ Spec.releaseReply awake = .refused := by decide +kernel

/-- A brace with its timers running, an unreferenced brace axis under way. -/
def bracing (b : BraceState) (s : State) : State :=
  { s with brace := { s.brace with
      state := b, source := some .command, deadlineLeft := some 1, holdLeft := some 1
      axes := [⟨0, .dir .plus, .moving, .none⟩] } }

theorem test_premises_BraceTimersFollowTheirRules :
    (awake.atEase ∧ awake.brace.state ≠ .bracing ∧ awake.brace.state ≠ .braced)
      ∧ ((bracing .bracing (running .brace aJog awake)).atEase ∧ (bracing .bracing (running .brace aJog awake)).brace.deadlineLeft.isSome = true
        ∧ (bracing .bracing (running .brace aJog awake)).claims.queue = []
        ∧ (bracing .bracing (running .brace aJog awake)).brace.releasePending = false
        ∧ (⟨0, .dir .plus, .moving, .none⟩ : BraceAxis) ∈ (bracing .bracing (running .brace aJog awake)).brace.axes
        ∧ ((bracing .bracing (running .brace aJog awake)).axis 0).referenced = false
        ∧ ((bracing .bracing (running .brace aJog awake)).axis 0).move = some aJog
        ∧ (bracing .bracing (running .brace aJog awake)).slotOf 0 = some ⟨0, .brace, .jog, 16⟩)
      ∧ ((bracing .braced awake).atEase ∧ (bracing .braced awake).brace.holdLeft.isSome = true ∧ (bracing .braced awake).brace.lineActive = false) := by
  decide +kernel

theorem test_premises_AfterCrashReleaseEndsTheBrace :
    (awake.awaits ∧ awake.brace.state ≠ .holding)
      ∧ ((bracing .holding (running .brace aJog awake)).awaits ∧ (bracing .holding (running .brace aJog awake)).brace.state = .holding
        ∧ (bracing .holding (running .brace aJog awake)).claims.queue = []
        ∧ (∀ a : Fin 8, (bracing .holding (running .brace aJog awake)).claims.held[a] = ⟨false, false, false⟩)
        ∧ (bracing .holding (running .brace aJog awake)).plans.current = none
        ∧ ((bracing .holding (running .brace aJog awake)).axis 0).activity = .running
        ∧ ((bracing .holding (running .brace aJog awake)).axis 0).move = some aJog) := by decide +kernel

theorem test_premises_ReceiverEventsTouchOnlyTheLink :
    (awake.atEase ∧ awake.link.discarding = false ∧ awake.link.lineLow = false ∧ awake.link.receiver = .hunting
        ∧ awake.link.restartDue = false ∧ parseFrame [3, 1, 0x34, 7, 0, 0] = none)
      ∧ ({ awake with link := { awake.link with receiver := .inFrame [3] } } : State).atEase
      ∧ ({ awake with link := { awake.link with lineLow := true } } : State).atEase
      ∧ ({ awake with link := { awake.link with discarding := true } } : State).atEase
      ∧ (owing [.overrun 1 2 3, .frameError 255] (sending awake)).link.owed = [.overrun 1 2 3] ++ .frameError 255 :: []
      ∧ (replying 0x06 awake).link.sending = some (.reply 0x06 9 .done .none true) := by decide +kernel

theorem test_premises_BytesMakeACommand :
    awake.awaits ∧ awake.link.receiver = .hunting ∧ (List.replicate 61 (0 : Byte)).length ≤ 61 := by decide +kernel

theorem test_premises_CommandFramesAreReadBack :
    (Instr.identify 1 (List.replicate 61 0)).wf = true ∧ (Instr.identify 1 (List.replicate 61 0)).code = some 0x01
      ∧ (Instr.braceReleaseAfterCrash 1).wf = true ∧ (Instr.braceReleaseAfterCrash 1).code = some 0x42 := by decide +kernel

/-- The end of a frame with each kind of reply owed, with notices pending, and with nothing; a frame that goes on; nothing being
sent; and SLEEP. -/
theorem test_premises_TransmitterChoosesInOrder :
    (∀ o ∈ [[Owed.frameError 2], [.overrun 1 2 3], [.command], []], (owing o (sending awake)).agenda = []
        ∧ (owing o (sending awake)).live = true ∧ (owing o (sending awake)).power.state ≠ .shuttingDown
        ∧ (owing o (sending awake)).link.sending.isSome = true ∧ (owing o (sending awake)).link.restartDue = false
        ∧ (owing o (sending awake)).link.owed = o)
      ∧ (after .setPress awake).live = true
      ∧ ((after .frameSent (after .setPress awake)).link.sending = none ∧ (after .frameSent (after .setPress awake)).live = true)
      ∧ Spec.resetsOrEndsFrame .setPress = false ∧ (after .setPress (sending awake)).power.state ≠ .sleep
      ∧ (asleep.link.sending = none ∧ (after .setPress asleep).power.state = .sleep) := by decide +kernel

/-- A STATUS AXES answered while another frame is being sent, and its content, which the frame's end sends or gathers anew. -/
theorem test_premises_TransmitterChoosesInOrder_run :
    ∃ taken, (after (.status 7 [1] ⟨0, 120⟩) (sending awake)).link.slot = .replied ⟨0x02, 7, [1]⟩ .done (.content taken)
      ∧ (after (.status 7 [1] ⟨0, 120⟩) (sending awake)).link.owed = .command :: []
      ∧ readSelector [1] = some .axes := ⟨_, rfl, rfl, rfl⟩

/-- R178: the run that begins when that frame ends shows the position counted after the command was taken. -/
theorem test_run_gathered_at_its_first_frame (taken : Content) (h : 59 < (Config.contentBytes taken).length) :
    (seated 41 awake).dataSent ⟨0x02, 7, [1]⟩ (.content taken) = .content ((seated 41 awake).statusContent .axes) :=
  dataSent_run _ _ _ _ rfl rfl h

/-- The silence timer running. -/
def watched (s : State) : State := { s with link := { s.link with silenceLeft := some 1 } }

theorem test_premises_SilenceExpiryQuietsTheSeat :
    (awake.atEase ∧ awake.link.silenceLeft = none)
      ∧ ((watched (braceIn .holding awake)).atEase ∧ (watched (braceIn .holding awake)).link.silenceLeft.isSome = true
        ∧ (watched (braceIn .holding awake)).brace.state ≠ .idle)
      ∧ ((watched (massaging 0 none awake)).atEase ∧ (watched (massaging 0 none awake)).unclaimed
        ∧ (watched (massaging 0 none awake)).massage.running = true)
      ∧ ((watched awake).unclaimed ∧ (watched awake).massage.running = false) := by decide +kernel

/-- The silence timer running while a frame is being sent. -/
theorem test_premises_SilenceExpiryQuietsTheSeat_sending :
    (watched (sending awake)).atEase ∧ (watched (sending awake)).link.silenceLeft.isSome = true
      ∧ (watched (sending awake)).link.sending.isSome = true := by decide +kernel

/-- A RESTART whose reply is being sent. -/
def restarting (s : State) : State := { replying 0x51 s with link := { (replying 0x51 s).link with restartDue := true } }

theorem test_premises_ResetsReturnEveryBlock :
    awake.awaits ∧ (restarting awake).live = true ∧ (restarting awake).link.restartDue = true
      ∧ (restarting awake).link.sending = some (.reply 0x51 9 .done .none true) := by decide +kernel

/-- A RESTART whose reply has not begun when a break comes. -/
theorem test_premises_ResetsReturnEveryBlock_break :
    ∃ s : State, s.live = true ∧ s.link.discarding = false ∧ s.link.lineLow = false ∧ s.link.restartDue = true
      ∧ ∀ tag data ofSlot, s.link.sending ≠ some (.reply 0x51 tag .done data ofSlot) :=
  ⟨{ awake with link := { awake.link with restartDue := true } }, by decide +kernel, by decide +kernel, by decide +kernel,
    by decide +kernel, fun _ _ _ h => by cases h⟩

/-- STARTING with a parking record and without one; SLEEP with a wake source; and the states in which the events find nothing. -/
theorem test_premises_EntriesToAwake :
    (State.reset.agenda = [] ∧ State.reset.power.held = false ∧ State.reset.power.state = .starting ∧ State.reset.brace.lineActive = false
        ∧ State.reset.store.parkingArea = .blank ∧ State.reset.link.sending = none ∧ State.reset.link.owed = [])
      ∧ (∃ r, ({ State.reset with store := { State.reset.store with parkingArea := .good r } } : State).store.parkingArea = .good r
        ∧ r.valid = true)
      ∧ (asleep.agenda = [] ∧ asleep.power.held = false ∧ asleep.power.state = .sleep ∧ asleep.switches.waking = []
        ∧ asleep.power.activationHeld = false)
      ∧ ((after .linkActivity asleep).agenda = [] ∧ (after .linkActivity asleep).power.state = .sleep
        ∧ (after .linkActivity asleep).power.wakeSource = some .link)
      ∧ (awake.agenda = [] ∧ awake.power.state = .awake) :=
  ⟨by decide +kernel, ⟨⟨true, Vector.replicate 8 ⟨true, 900, some 3496⟩⟩, rfl, rfl⟩, by decide +kernel, by decide +kernel,
    by decide +kernel⟩

theorem test_premises_ShutdownLeadsToSleep :
    ((braceIn .holding awake).awaits ∧ (braceIn .holding awake).brace.state ≠ .idle)
      ∧ (awake.awaits ∧ awake.unclaimed ∧ (∀ a : Fin 8, (awake.axis a).moving = false) ∧ awake.store.job = none
        ∧ awake.store.pendingParking = false ∧ ∀ p : Fin 6, awake.store.pendingProfiles[p] = false)
      ∧ ((shuttingDown .writing awake).agenda = [] ∧ (shuttingDown .writing awake).power.held = false
        ∧ (shuttingDown .writing awake).power.state = .shuttingDown ∧ (shuttingDown .writing awake).link.slot = .empty
        ∧ (shuttingDown .writing awake).link.owed = [] ∧ (shuttingDown .writing awake).link.sending = none)
      ∧ (storing (.parking ⟨true, Vector.replicate 8 ⟨true, 900, some 3496⟩⟩) (shuttingDown .writing awake)).store.job
          = some (.parking ⟨true, Vector.replicate 8 ⟨true, 900, some 3496⟩⟩) := by decide +kernel

theorem test_premises_ShuttingDownGatesRequests :
    ∃ s : State, Spec.shuttingDown s ∧ s.brace.state = .idle ∧ s.power.phase = .waiting ∧ (readMove [7, 0x1F, 0xFF]).isSome = true
      ∧ (readJog [7, 1]).isSome = true ∧ (readReference [7]).isSome = true ∧ (readPlanRun [31, 1, 1]).isSome = true
      ∧ (readOneSlot [6]).isSome = true ∧ (readProfileStore [6, 7, 255]).isSome = true ∧ (readProfileWrite (aRecord 6)).isSome = true
      ∧ (readCellSet [1, 8, 120]).isSome = true ∧ (readMassageStart [7, 5]).isSome = true ∧ (readHeatSet [1, 3, 1, 100]).isSome = true
      ∧ s.plans.next = none ∧ s.owner 7 = .none ∧ s.massage.running = false ∧ s.contact .set = ⟨false, false⟩ ∧ s.claims.queue = []
      ∧ s.plans.current = none ∧ s.gov.regime = false ∧ s.brace.lineActive = false :=
  ⟨shuttingDown .waiting awake, by decide +kernel⟩

/-- A claim over a LINK move, one on an axis that still moves for SWITCH, its renewal at the settle, and one that replaces an entry. -/
theorem test_premises_ClaimsTakeOverHoldAndReplace :
    (∃ s : State, Spec.freeToPress s 0 .plus ∧ s.claims.queue = [] ∧ s.owner 0 = .link ∧ (s.axis 0).activity = .running
        ∧ (s.axis 0).move = some aJog ∧ s.slotOf 0 = some ⟨0, .link, .jog, 16⟩)
      ∧ (∃ s : State, Spec.freeToPress s 0 .plus ∧ (∀ e ∈ s.claims.queue, e.axis ≠ 0) ∧ s.owner 0 = .switch ∧ (s.axis 0).moving = true
        ∧ s.slotOf 0 = some ⟨0, .switch, .jog, 16⟩)
      ∧ (∃ s : State, s.atEase ∧ s.brace.state = .idle ∧ s.plans.current = none ∧ s.claims.queue = []
        ∧ s.contact (.axis 0 .plus) = ⟨true, false⟩ ∧ s.pair 0 = ⟨false, .held .plus⟩ ∧ s.claims.held[0] = ⟨false, true, false⟩
        ∧ (s.axis 0).activity = .stopping ∧ (s.axis 0).latch = .none ∧ (s.axis 0).referenced = false
        ∧ (s.axis 0).move = some { aJog with stopCause := some .owner } ∧ s.slotOf 0 = some ⟨0, .switch, .jog, 16⟩
        ∧ s.owner 0 = .switch ∧ s.slotCount 0 = 1 ∧ s.gov.supply = .normal ∧ s.power.standing = .invalid ∧ s.braceCellQueued = false
        ∧ (s.axis 0).cfg.ratedUnits + s.motorUnits ≤ s.gov.limit)
      ∧ ∃ s : State, s.awaits ∧ s.brace.state = .idle ∧ s.owner 0 = .link ∧ (s.axis 0).activity = .idle ∧ s.slotOf 0 = none
        ∧ s.claims.queue = [jogEntry 0 .link] ∧ s.gov.supply = .low :=
  ⟨⟨running .link aJog awake, by decide +kernel⟩, ⟨running .switch aJog awake, by decide +kernel⟩,
    ⟨let s := paired ⟨false, .held .plus⟩
        (contacted (.axis 0 .plus) ⟨true, false⟩ (stoppingFor .switch { aJog with stopCause := some .owner } awake));
      { s with claims := { s.claims with held := s.claims.held.set 0 ⟨false, true, false⟩ } }, by decide +kernel⟩,
    ⟨let s := low (queued [jogEntry 0 .link] awake);
      { s with claims := { s.claims with owners := s.claims.owners.set 0 .link } }, by decide +kernel⟩⟩

/-- A place between two owners; an entry passed over and one that blocks; an invalidation written first, and its end. -/
theorem test_premises_StartQueueIsWalkedInOrder :
    (∃ s : State, s.awaits ∧ s.brace.state = .idle ∧ s.owner 0 = .none ∧ (s.axis 0).activity = .idle ∧ s.gov.supply = .low
        ∧ s.claims.queue = [jogEntry 1 .link] ++ [jogEntry 2 .plan] ∧ ∀ x ∈ s.claims.queue, x.axis ≠ 0)
      ∧ (∃ s : State, s.atEase ∧ s.brace.state = .idle ∧ s.plans.current = none ∧ s.gov.supply = .low ∧ s.braceCellQueued = false
        ∧ s.claims.queue = [jogEntry 1 .link, jogEntry 0 .link] ∧ Spec.jogReady s (jogEntry 0 .link) .plus
        ∧ (s.axis 1).moving = true ∧ s.claims.slots[0] = none ∧ s.power.standing = .invalid
        ∧ (s.axis 0).cfg.ratedUnits + s.motorUnits ≤ s.gov.limit)
      ∧ (∃ s : State, s.atEase ∧ s.brace.state = .idle ∧ s.plans.current = none ∧ s.gov.supply = .low ∧ s.braceCellQueued = false
        ∧ s.claims.queue = [jogEntry 1 .link, jogEntry 0 .link] ∧ Spec.jogReady s (jogEntry 0 .link) .plus
        ∧ (s.axis 1).activity = .idle ∧ s.slotOf 1 = none ∧ s.gov.limit < (s.axis 1).cfg.ratedUnits + s.motorUnits)
      ∧ (∀ o ∈ [Owner.link, .brace], ∃ s : State, s.atEase ∧ s.brace.state = .idle ∧ s.plans.current = none ∧ s.gov.supply = .low
        ∧ s.braceCellQueued = false ∧ s.claims.queue = [jogEntry 0 o] ∧ Spec.jogReady s (jogEntry 0 o) .plus
        ∧ s.claims.slots[0] = none ∧ s.power.standing = .valid ∧ s.store.job = none
        ∧ (s.axis 0).cfg.ratedUnits + s.motorUnits ≤ s.gov.limit)
      ∧ ∃ s : State, s.atEase ∧ s.brace.state = .idle ∧ s.plans.current = none ∧ s.gov.supply = .normal ∧ s.braceCellQueued = false
        ∧ s.claims.queue = [jogEntry 0 .link] ∧ Spec.jogReady s (jogEntry 0 .link) .plus ∧ s.claims.slots[0] = none
        ∧ s.power.standing = .invalidating ∧ s.store.job = some (.parking .cleared) ∧ ParkingRecord.cleared.valid = false
        ∧ s.store.pendingParking = false ∧ (s.axis 0).cfg.ratedUnits + s.motorUnits ≤ s.gov.limit := by
  refine ⟨⟨low (queued [jogEntry 1 .link, jogEntry 2 .plan] awake), by decide +kernel⟩,
    ⟨let s := low (queued [jogEntry 1 .link, jogEntry 0 .link] awake);
      { s with axes := s.axes.set 1 { s.axes[1] with activity := .running } }, by decide +kernel⟩,
    ⟨let s := low (queued [jogEntry 1 .link, jogEntry 0 .link] awake);
      { s with gov := { s.gov with limit := 19 } }, by decide +kernel⟩, ?_,
    ⟨storing (.parking .cleared) (parked .invalidating (queued [jogEntry 0 .link] awake)), by decide +kernel⟩⟩
  intro o h
  exact ⟨parked .valid (low (queued [jogEntry 0 o] awake)), by revert o; decide +kernel⟩

/-- A profile of these fields in slot 0, VALID. -/
def holding (c : ProfileContent) (s : State) : State := { s with profiles := s.profiles.set 0 ⟨.valid, c, true⟩ }

/-- A RECALL plan of slot 0 in phase A with a move of axis 0 in flight, and the axes of its phase B. -/
def recalling (phaseB : List (Fin 8)) : Plan :=
  { aPlan 1 none with kind := .recall 0, step := some .phaseA, entries := [⟨0, some 1008, .started⟩], inFlight := [0], phaseB := phaseB }

/-- Axis 0 settling at its target under PLAN in phase A of that plan, with the supply LOW. -/
def phasing (phaseB : List (Fin 8)) : State :=
  let s := low (stoppingFor .plan { aMove 1008 with ended := some .coastLead }
    (holding { ProfileContent.empty with positions := ProfileContent.empty.positions.set 6 (some 2000) } (seated 1000 awake)))
  { s with plans := { s.plans with current := some (recalling phaseB) } }

/-- A recall behind CURRENT and one of presets alone; one into CURRENT with a queued entry in phase A; and the settle that ends phase A
without and with a phase B. -/
theorem test_premises_RecallRunsInPhases :
    (∃ s : State, s.awaits ∧ s.brace.state = .idle ∧ s.plans.vehicle = .parked ∧ (s.profile 0).state = .valid ∧ s.claims.queue = []
        ∧ s.plans.current.isSome = true ∧ s.plans.next = none ∧ (1 : Byte).toNat = (0 : Fin 6).val + 1)
      ∧ (∃ s : State, s.awaits ∧ (s.profile 0).state = .valid ∧ s.claims.queue = [] ∧ s.plans.current = none ∧ s.plans.next = none
        ∧ (∀ a : Fin 8, (s.profile 0).content.positions[a] = none)
        ∧ (s.profile 0).content.massage = some (0, 1) ∧ (s.pattern 0).state = .ready)
      ∧ (∃ s : State, s.awaits ∧ (s.profile 0).state = .valid ∧ s.claims.queue = [] ∧ s.plans.current = none
        ∧ (s.profile 0).content.lumbar = none ∧ (s.profile 0).content.heat = none ∧ (s.profile 0).content.massage = none
        ∧ s.gov.supply = .low
        ∧ (∀ a : Fin 8, s.owner a = .none ∧ (s.axis a).activity = .idle ∧ (s.axis a).latch = .none ∧ s.slotOf a = none)
        ∧ ∃ a ∈ Spec.phase s 0 true, (Spec.recallEntry s 0 a).standing = .queued)
      ∧ ∀ b ∈ [[], [6]], (phasing b).atEase ∧ (phasing b).gov.supply = .low ∧ (phasing b).claims.queue = []
        ∧ (∀ c : Fin 8, (phasing b).claims.held[c] = ⟨false, false, false⟩) ∧ ((phasing b).axis 0).activity = .stopping
        ∧ ((phasing b).axis 0).latch = .none ∧ ((phasing b).axis 0).move = some { aMove 1008 with ended := some .coastLead }
        ∧ Spec.apart ((phasing b).axis 0).position 1008 ≤ (aMove 1008).tolerance
        ∧ (phasing b).slotOf 0 = some ⟨0, .plan, .targeted, 16⟩ ∧ (phasing b).owner 0 = .plan
        ∧ (phasing b).plans.current = some (recalling b) ∧ (recalling b).phaseB = b
        ∧ (∀ e ∈ (recalling b).entries, e.axis = 0 ∧ e.standing = .started) ∧ (phasing b).plans.next = none
        ∧ ((phasing b).profile 0).content.positions[6] = some 2000 ∧ ((phasing b).axis 6).referenced = true
        ∧ ((phasing b).axis 6).activity = .idle ∧ (phasing b).owner 6 = .none
        ∧ ((phasing b).axis 6).cfg.tolerance < Spec.apart ((phasing b).axis 6).position (((phasing b).axis 6).intoLimits 2000) :=
  ⟨⟨profiled (pausing 1 none awake), by decide +kernel⟩,
    ⟨holding { ProfileContent.empty with lumbar := some (80, 0), massage := some (0, 1) } awake, by decide +kernel⟩,
    ⟨low (profiled (seated 1000 awake)), by decide +kernel⟩, by decide +kernel⟩

/-- A brace of axis 0 in a state, its snapshot at position 900 with massage RUNNING. -/
def braceOfOne (b : BraceState) (r : RestoreProgress) (s : State) : State :=
  { s with brace := { s.brace with
      state := b, source := some .command, holdLeft := some 1, axes := [⟨0, .target 500, .done .reached, r⟩]
      snapshot := some ⟨(Vector.replicate 8 none).set 0 (some 900), #v[0, 0, 40, 0], some (0, 1)⟩ } }

/-- A re-brace over a restore move, the start of a restore, the settle that finishes one, and a press of SET in one. -/
theorem test_premises_BraceRestoresTheSeat :
    (∃ s : State, s.awaits ∧ s.claims.queue = [] ∧ s.plans.current = none ∧ (∀ c : Fin 8, s.claims.held[c] = ⟨false, false, false⟩)
        ∧ s.brace.state = .restoring ∧ s.brace.axes = [⟨0, .target 500, .done .reached, .moving⟩] ∧ s.owner 0 = .brace
        ∧ s.slotOf 0 = some ⟨0, .brace, .targeted, 16⟩ ∧ (s.axis 0).activity = .running ∧ (s.axis 0).move = some (aMove 900)
        ∧ (s.axis 0).latch = .none ∧ (s.axis 0).referenced = true ∧ (s.axis 0).cfg.braceTarget = .absolute 500
        ∧ s.brace.lineActive = false)
      ∧ (∃ s : State, s.atEase ∧ s.claims.queue = [] ∧ s.plans.current = none ∧ s.brace.state = .braced
        ∧ s.brace.holdLeft.isSome = true ∧ s.brace.lineActive = false
        ∧ s.brace.axes = [⟨0, .target 500, .done .reached, .none⟩]
        ∧ (∃ n, s.brace.snapshot = some n ∧ n.positions[0] = some 900) ∧ (s.axis 0).activity = .idle ∧ (s.axis 0).latch = .none
        ∧ (s.axis 0).referenced = true ∧ s.owner 0 = .none ∧ s.slotOf 0 = none ∧ s.claims.slots[0] = none
        ∧ s.power.standing = .invalid
        ∧ (s.axis 0).cfg.ratedUnits + s.motorUnits + (if s.braceCellQueued = true then s.gov.pumpGrant else 0) ≤ s.gov.limit
        ∧ (s.axis 0).cfg.tolerance < Spec.apart (s.axis 0).position ((s.axis 0).intoLimits 900))
      ∧ (∃ s : State, s.atEase ∧ s.brace.state = .restoring ∧ s.brace.axes = [⟨0, .target 500, .done .reached, .moving⟩]
        ∧ (∃ n, s.brace.snapshot = some n ∧ n.massage = some (0, 1)) ∧ (s.pattern 0).state = .ready
        ∧ (s.axis 0).activity = .stopping ∧ (s.axis 0).latch = .none
        ∧ (s.axis 0).move = some { aMove 908 with ended := some .coastLead }
        ∧ Spec.apart (s.axis 0).position 908 ≤ (aMove 908).tolerance ∧ s.slotOf 0 = some ⟨0, .brace, .targeted, 16⟩
        ∧ s.owner 0 = .brace ∧ s.claims.queue = [])
      ∧ ∃ s : State, s.atEase ∧ s.brace.state = .restoring ∧ s.brace.snapshot.isSome = true ∧ s.contact .set = ⟨false, false⟩
        ∧ s.claims.queue = [] ∧ s.plans.current = none ∧ s.movingFor 0 .brace = true ∧ (s.axis 0).activity = .running :=
  ⟨⟨let s := braceOfOne .restoring .moving (running .brace (aMove 900) (seated 1000 awake));
      { s with axes := s.axes.set 0 { s.axes[0] with cfg := { s.axes[0].cfg with braceTarget := .absolute 500 } } },
      by decide +kernel⟩,
    ⟨braceOfOne .braced .none (seated 1000 awake), by decide +kernel, by decide +kernel, by decide +kernel, by decide +kernel,
      by decide +kernel, by decide +kernel, by decide +kernel, ⟨_, rfl, rfl⟩, by decide +kernel⟩,
    ⟨braceOfOne .restoring .moving (stoppingFor .brace { aMove 908 with ended := some .coastLead } (seated 900 awake)),
      by decide +kernel, by decide +kernel, by decide +kernel, ⟨_, rfl, rfl⟩, by decide +kernel⟩,
    ⟨braceOfOne .restoring .moving (running .brace (aMove 900) (seated 1000 awake)), by decide +kernel⟩⟩

/-- Cell 10 owned by BRACE, in the fill queue or outside it, during a brace. -/
def bolstered (x : Cell) (p : PumpState) (q : List (Fin 12)) : State :=
  let s := pumped p q (braceIn .holding awake)
  { s with cells := { s.cells with cells := s.cells.cells.set 10 x } }

/-- A bolster at VENT whose reading is at its target. -/
theorem test_premises_BolsterProgressFollowsTheCells_vent :
    (bolstered ⟨.brace, 90, 100, .vent, 0, .none⟩ .idle []).atEase
      ∧ (bolstered ⟨.brace, 90, 100, .vent, 0, .none⟩ .idle []).brace.state ≠ .idle
      ∧ (10 : Fin 12) ∉ (bolstered ⟨.brace, 90, 100, .vent, 0, .none⟩ .idle []).cells.queue
      ∧ ((bolstered ⟨.brace, 90, 100, .vent, 0, .none⟩ .idle []).cell 10).valve = .vent
      ∧ ((bolstered ⟨.brace, 90, 100, .vent, 0, .none⟩ .idle []).cell 10).target = 90 ∧ min 90 120 ≤ 90 := by decide +kernel

/-- R155, R156: the entry of a late brace whose axis was decided NOT_MOVED is MOVING from its start and DONE at its result, or DONE at
its withdrawal; one that the axis's restore claim replaces is DONE with REPLACED, the restore waiting on. -/
theorem test_late_entry_of_an_axis_not_moved :
    (((braceOfOne .braced .none awake).onBraceAxis 0 fun x => { x with progress := .notMoved }).braceStarted 0).brace.axes.map (·.progress)
        = [.moving]
      ∧ ((((braceOfOne .braced .none awake).onBraceAxis 0 fun x => { x with progress := .notMoved }).braceStarted 0).braceResult 0
          .reached).brace.axes.map (·.progress) = [.done .reached]
      ∧ (((braceOfOne .braced .none awake).onBraceAxis 0 fun x => { x with progress := .notMoved }).braceWithdrawn 0
          (.aborted .axisFault)).brace.axes.map (·.progress) = [.done (.aborted .axisFault)]
      ∧ (((braceOfOne .restoring .waiting awake).onBraceAxis 0 fun x => { x with progress := .notMoved }).braceWithdrawn 0
          (.aborted .replaced)).brace.axes.map (fun x => (x.progress, x.restore)) = [(.done (.aborted .replaced), .waiting)] := by
  decide +kernel

/-- At the target in the queue, a half-kPa below the band outside it, filling at the head of a pump that runs, and a LEAK to be cleared. -/
theorem test_premises_BolsterProgressFollowsTheCells :
    (∃ s : State, s.atEase ∧ s.brace.state ≠ .idle ∧ s.claims.queue = [] ∧ (s.cell 10).owner = .brace ∧ (s.cell 10).latch = .none
        ∧ (10 : Fin 12) ∈ s.cells.queue ∧ (s.cell 10).target = min 90 120 ∧ s.cells.pump = .running
        ∧ s.cells.queue.head? = some 10)
      ∧ (∃ s : State, s.atEase ∧ s.brace.state ≠ .idle ∧ s.claims.queue = [] ∧ (s.cell 10).owner = .brace
        ∧ (s.cell 10).latch = .none ∧ (10 : Fin 12) ∉ s.cells.queue ∧ min 85 120 + 4 < (s.cell 10).target)
      ∧ ∃ s : State, s.awaits ∧ s.brace.state ≠ .idle ∧ s.claims.queue = [] ∧ (s.cell 10).owner = .brace
        ∧ (10 : Byte).toNat = (10 : Fin 12).val ∧ (s.cell 10).latch = .leak ∧ (10 : Fin 12) ∉ s.cells.queue
        ∧ (s.cell 10).pressure + 4 < (s.cell 10).target ∧ s.cells.pump ≠ .tripped :=
  ⟨⟨bolstered ⟨.brace, 90, 50, .fill, 100, .none⟩ .running [10], by decide +kernel⟩,
    ⟨bolstered ⟨.brace, 90, 90, .hold, 0, .none⟩ .idle [], by decide +kernel⟩,
    ⟨bolstered ⟨.brace, 90, 50, .vent, 8000, .leak⟩ .idle [], by decide +kernel⟩⟩

/-- The press of a pair's other contact, the two waking presses, and a jog that ends with its contact held. -/
theorem test_premises_SwitchJogsMeetTheirEnds :
    (∃ s : State, s.atEase ∧ s.brace.state = .idle ∧ s.plans.current = none ∧ s.contact (.axis 0 .minus) = ⟨false, false⟩
        ∧ (s.contact (.axis 0 (oppositeDir .minus))).pressed = true ∧ s.pair 0 = ⟨false, .admitted (oppositeDir .minus)⟩
        ∧ (s.axis 0).activity = .running ∧ (s.axis 0).move = some aJog ∧ s.slotOf 0 = some ⟨0, .switch, .jog, 16⟩
        ∧ ∀ e ∈ s.claims.queue, e.axis = 0 → e.owner ≠ .switch)
      ∧ (asleep.agenda = [] ∧ asleep.power.held = false ∧ asleep.power.state = .sleep ∧ (asleep.contact .set).pressed = false)
      ∧ (∃ s : State, s.agenda = [] ∧ s.power.held = false ∧ s.power.state = .sleep ∧ s.power.wakeSource.isSome = true
        ∧ s.power.activationHeld = false ∧ s.brace.state = .idle ∧ s.plans.current = none ∧ s.switches.waking = [.set]
        ∧ (s.contact .set).pressed = true)
      ∧ (∃ s : State, s.agenda = [] ∧ s.power.held = false ∧ s.power.state = .sleep ∧ s.power.wakeSource.isSome = true
        ∧ s.power.activationHeld = false ∧ s.switches.waking = [.axis 0 .plus] ∧ (s.contact (.axis 0 .plus)).pressed = true
        ∧ (s.contact (.axis 0 (oppositeDir .plus))).pressed = false ∧ s.pair 0 = ⟨false, .none⟩ ∧ (s.axis 0).activity = .idle
        ∧ s.owner 0 = .none ∧ s.slotOf 0 = none ∧ s.claims.slots[0] = none ∧ s.claims.queue = [] ∧ s.gov.supply = .normal
        ∧ s.power.standing = .valid ∧ s.store.job = none ∧ s.braceCellQueued = false
        ∧ (s.axis 0).cfg.ratedUnits + s.motorUnits ≤ s.gov.limit)
      ∧ ∃ s : State, s.atEase ∧ s.unclaimed ∧ (s.axis 0).activity = .stopping
        ∧ (s.axis 0).move = some { aJog with ended := some .endStop } ∧ s.slotOf 0 = some ⟨0, .switch, .jog, 16⟩
        ∧ s.owner 0 = .switch ∧ s.pair 0 = ⟨false, .admitted .plus⟩ ∧ (s.contact (.axis 0 .plus)).pressed = true :=
  ⟨⟨paired ⟨false, .admitted .plus⟩ (contacted (.axis 0 .plus) ⟨true, false⟩ (running .switch aJog awake)), by decide +kernel⟩,
    by decide +kernel, ⟨after .setPress asleep, by decide +kernel⟩,
    ⟨parked .valid (after (.axisContactPress 0 .plus) asleep), by decide +kernel⟩,
    ⟨paired ⟨false, .admitted .plus⟩
        (contacted (.axis 0 .plus) ⟨true, false⟩ (stoppingFor .switch { aJog with ended := some .endStop } awake)), by decide +kernel⟩⟩

/-- A plan at a pause and the store window open, of which the notices tell. -/
theorem test_premises_NoticesCarryTheirFields :
    (pausing 1 none awake).plans.current = some (aPlan 1 (some 50)) ∧ (aPlan 1 (some 50)).state = .running
      ∧ (windowed awake).switches.window = some 1 ∧ (massaging 0 none awake).massage.sessionLeft = some 900000 := by decide +kernel

/-- For each of the nine kinds a command that changes what it reports, while a frame is being sent. -/
theorem test_premises_ChangesPostTheirNotices :
    ((sending awake).agenda = [] ∧ (sending awake).link.sending.isSome = true ∧ (sending awake).power.held = false
        ∧ (sending awake).power.state ≠ .starting)
      ∧ ((sending (after .setPress asleep)).link.sending.isSome = true ∧ (sending (after .setPress asleep)).power.state = .sleep
        ∧ (after .wake (sending (after .setPress asleep))).power.state = .awake)
      ∧ (after (.brace 1 []) (sending awake)).brace.state ≠ (sending awake).brace.state
      ∧ (after (.supplyLow 89) (sending awake)).gov.supply ≠ (sending awake).gov.supply
      ∧ (after (.vehicle 1 [1]) (sending awake)).plans.vehicle ≠ (sending awake).plans.vehicle
      ∧ (after (.jog 1 [0, 0]) (sending awake)).owner 0 ≠ (sending awake).owner 0
      ∧ (after (.profileErase 1 [1]) (sending awake)).lastProfile ≠ (sending awake).lastProfile
      ∧ (after (.massageStart 1 [0, 1]) (sending awake)).massage.running ≠ (sending awake).massage.running
      ∧ ((after (.heatSet 1 [1, 0, 1, 50]) (sending awake)).zone 0).mode ≠ ((sending awake).zone 0).mode
      ∧ (after .setPress (sending awake)).switches.contacts ≠ (sending awake).switches.contacts := by decide +kernel

end Sys2Proof.Tests
end

