-- ==== Sys2Proof/Proofs/MovePlans/Trace.lean ====
section
/-! A step followed request by request, and a command from its arrival to its answer: what the statements on move plans (O23 to O26)
share. -/

namespace Sys2Proof.MovePlans

open Sys2Proof.Machine

/-! ### Requests carried out one after another -/

/-- After `k` requests the state `s` has become `t`. -/
def Reaches (k : Nat) (s t : State) : Prop := ∀ n, drain (n + k) s = drain n t

theorem Reaches.refl (s : State) : Reaches 0 s s := fun _ => rfl

theorem Reaches.trans {j k : Nat} {s t u : State} (h : Reaches j s t) (g : Reaches k t u) : Reaches (j + k) s u := fun n => by
  rw [show n + (j + k) = n + k + j by omega, h, g]

/-- One request, with the state that it leaves named. -/
theorem Reaches.one {s t : State} {w : Work} {ws : List Work} (h : s.agenda = w :: ws) (e : doWork w { s with agenda := ws } = t) :
    Reaches 1 s t := fun n => e ▸ drain_request n s w ws h

/-- A single request just made. -/
theorem Reaches.called (w : Work) {s t : State} (e : doWork w s = t) : Reaches 1 (s.call [w]) t := Reaches.one rfl e

theorem Reaches.drain {k : Nat} {s t : State} (h : Reaches k s t) (ht : t.agenda = []) (hk : k ≤ Config.agendaFuel) :
    drain Config.agendaFuel s = t := by
  rw [show Config.agendaFuel = Config.agendaFuel - k + k by omega, h, drain_done _ _ ht]

/-- A step whose requests have been followed to their end. -/
theorem Reaches.finish {k : Nat} {s t : State} (h : Reaches k s t) (ht : t.agenda = []) (hp : t.power.state = .awake)
    (hk : k ≤ Config.agendaFuel) : s.finish = { t with link := s.finish.link } ∧ s.link.carriesOn s.finish.link := by
  have end_eq : s.finish = t.transmit := by
    rw [← finish_quiet t ht (by simp [hp]), State.finish, State.finish, h.drain ht hk, drain_done _ _ ht]
  have drained : s.link.carriesOn t.link := by
    have fixed := fixed_link (fixed_drain Config.agendaFuel s)
    rw [h.drain ht hk] at fixed
    rw [fixed]
  rw [end_eq]
  exact ⟨transmit_eq t, carriesOn_trans drained (transmit_carriesOn t)⟩

/-! ### What the end of any step leaves -/

theorem enterSleep_slot (s : State) : s.enterSleep.link.slot = s.link.slot := by
  unfold State.enterSleep State.cellsSleep
  rw [fixed_link (fixed_recompute _)]
  dsimp only
  rw [carriesOn_slot (postIf_carriesOn _ _ _)]
  split <;> rfl

theorem enterSleep_plans (s : State) : s.enterSleep.plans = s.plans := by
  unfold State.enterSleep State.cellsSleep
  dsimp only
  rw [State.recompute_plans]
  split <;> simp

theorem powerCheck_slot (s : State) : s.powerCheck.link.slot = s.link.slot := by
  unfold State.powerCheck
  (repeat' split) <;> simp [enterSleep_slot]

theorem powerCheck_plans (s : State) : s.powerCheck.plans = s.plans := by
  unfold State.powerCheck
  (repeat' split) <;> simp [enterSleep_plans]

/-- However a step goes on, the command slot stays as the command's own act left it. -/
theorem finish_slot (s : State) : s.finish.link.slot = s.link.slot :=
  calc s.finish.link.slot = (drain Config.agendaFuel s).powerCheck.link.slot := carriesOn_slot (transmit_carriesOn _)
    _ = (drain Config.agendaFuel s).link.slot := powerCheck_slot _
    _ = s.link.slot := by rw [fixed_link (fixed_drain Config.agendaFuel s)]

theorem finish_plans (s : State) : s.finish.plans = (drain Config.agendaFuel s).plans :=
  (State.transmit_plans _).trans (powerCheck_plans _)

/-- A notice is posted: only the pending notices of the link can change. -/
theorem postIf_eq (b : Bool) (k : NoticeKind) (s : State) :
    State.postIf b k s = { s with link.pendingNotices :=
      if b then s.link.pendingNotices.set k.index true else s.link.pendingNotices } := by
  cases b <;> rfl

/-! ### A command from its arrival to its answer -/

/-- The state of a command's act with its reply in the slot (R173). -/
def replied (c : Command) (r : State × Reply) : State := { r.1 with link.slot := .replied c r.2.1 r.2.2 }

/-- The link as a command's arrival leaves it, up to the slot (R173, R180). -/
def Heard (c : Command) (before after : Link) : Prop :=
  ∀ status data, before.answered c status data { after with slot := .replied c status data }

theorem answered_carriesOn {c : Command} {status : ReplyStatus} {data : ReplyData} {l m n : Link} (h : l.answered c status data m)
    (k : m.carriesOn n) : l.answered c status data n := by
  unfold Link.answered Link.carriesOn at *
  rw [k, h]

/-- A command that arrives where one is awaited is placed in the slot; nothing but the link is touched. -/
theorem arrive_awaits {s : State} (h : s.awaits) (c : Command) :
    ∃ l, s.arrive c = { s with link := l } ∧ Heard c s.link l := by
  obtain ⟨⟨_, hp, _⟩, _, _, hs⟩ := h
  refine ⟨(s.arrive c).link, ?_, fun status data => ?_⟩
  · simp only [State.arrive, hs, State.startSilence, hp, State.setHostSilent, postIf_eq]
    rfl
  · simp only [State.arrive, hs, State.startSilence, hp, State.setHostSilent, postIf_eq]
    rfl

/-- A command that arrives where one is awaited is taken at once, and its step goes on from its act with the reply in the slot. -/
theorem command_taken {s : State} (h : s.awaits) (code tag : Byte) (payload : List Byte) (act : State → State × Reply) :
    ∃ l, Heard ⟨code, tag, payload⟩ s.link l
      ∧ command code tag payload act s = .next (replied ⟨code, tag, payload⟩ (act { s with link := l })).finish := by
  obtain ⟨l, arrived, heard⟩ := arrive_awaits h ⟨code, tag, payload⟩
  obtain ⟨⟨_, hp, hh⟩, hd, hl, hs⟩ := h
  refine ⟨l, heard, ?_⟩
  have taken : s.hostCommand code tag payload act = replied ⟨code, tag, payload⟩ (act { s with link := l }) := by
    simp [State.hostCommand, State.live, State.receiving, hp, hh, hd, hl, hs, arrived, State.takeCommand, replied]
  rw [command, taken, answer]

/-- A command whose act makes no request: what the act did, with the reply given. -/
theorem replied_quiet {s t : State} {c : Command} {l m : Link} {status : ReplyStatus} {data : ReplyData} (heard : Heard c s.link l)
    (hm : l.carriesOn m) (ht : t.agenda = []) (hp : t.power.state = .awake) :
    ∃ n, (replied c ({ t with link := m }, status, data)).finish = { t with link := n } ∧ s.link.answered c status data n := by
  obtain ⟨end_eq, carried⟩ := (Reaches.refl (replied c ({ t with link := m }, status, data))).finish ht hp (Nat.zero_le _)
  refine ⟨_, end_eq, answered_carriesOn (heard status data) (carriesOn_trans ?_ carried)⟩
  unfold Link.carriesOn at *
  rw [hm]
  rfl

end Sys2Proof.MovePlans
end

