-- ==== Sys2Proof/Proofs/MovePlans/Load.lean ====
section
/-! The step table is written whole or not at all (O23). -/

namespace Sys2Proof.MovePlans

open Sys2Proof.Machine

/-- A command whose act leaves everything but the link and makes no request ends there, answered. -/
theorem command_quiet {s t : State} (h : s.awaits) (code tag : Byte) (payload : List Byte) {act : State → State × Reply}
    {status : ReplyStatus} {data : ReplyData}
    (acts : ∀ l, ∃ m, act { s with link := l } = ({ t with link := m }, status, data) ∧ l.carriesOn m) (ht : t.agenda = [])
    (hp : t.power.state = .awake) :
    ∃ l, command code tag payload act s = .next { t with link := l } ∧ s.link.answered ⟨code, tag, payload⟩ status data l := by
  obtain ⟨l, heard, taken⟩ := command_taken h code tag payload act
  obtain ⟨m, acted, carried⟩ := acts l
  obtain ⟨n, end_eq, answered⟩ := replied_quiet heard carried ht hp
  exact ⟨n, by rw [taken, acted, end_eq], answered⟩

/-! ### Writing the table -/

/-- The step table with descriptors written one after another (R62). -/
def written (ds : List (Fin 32 × Option Descriptor)) (table : Vector (Option Descriptor) 32) : Vector (Option Descriptor) 32 :=
  ds.foldl (fun t d => t.set d.1 d.2) table

theorem written_cons (d : Fin 32 × Option Descriptor) (ds : List (Fin 32 × Option Descriptor)) (table : Vector (Option Descriptor) 32) :
    written (d :: ds) table = written ds (table.set d.1 d.2) := rfl

/-- What is not named stays as it was. -/
theorem written_other (ds : List (Fin 32 × Option Descriptor)) (table : Vector (Option Descriptor) 32) (i : Fin 32)
    (h : ∀ d, (i, d) ∉ ds) : (written ds table)[i] = table[i] := by
  induction ds generalizing table with
  | nil => rfl
  | cons x ds ih =>
    have apart : x.1.val ≠ i.val := fun e => h x.2 (by simp [Fin.ext e.symm])
    rw [written_cons, ih _ fun d hd => h d (List.mem_cons_of_mem _ hd)]
    simp [apart]

/-- Where the indices differ, what is named is written. -/
theorem written_named (ds : List (Fin 32 × Option Descriptor)) (table : Vector (Option Descriptor) 32) (h : (ds.map Prod.fst).Nodup)
    (i : Fin 32) (d : Option Descriptor) (hd : (i, d) ∈ ds) : (written ds table)[i] = d := by
  induction ds generalizing table with
  | nil => simp at hd
  | cons x ds ih =>
    obtain ⟨fresh, rest⟩ := List.nodup_cons.mp h
    rw [written_cons]
    rcases List.mem_cons.mp hd with rfl | later
    · rw [written_other ds _ i fun _ again => fresh (List.mem_map.mpr ⟨_, again, rfl⟩)]
      simp
    · exact ih _ rest later

/-- A payload of PLAN_LOAD names different indices (R62). -/
theorem readPlanLoad_nodup {payload : List Byte} {ds : List (Fin 32 × Option Descriptor)} (h : readPlanLoad payload = some ds) :
    (ds.map Prod.fst).Nodup := by
  cases payload with
  | nil => cases h
  | cons n rest =>
    simp only [readPlanLoad, require, distinct, Option.bind_eq_bind, Option.bind_eq_some_iff, Option.pure_def, Option.some.injEq] at h
    obtain ⟨count, _, _, _, es, _, _, distinct, rfl⟩ := h
    by_contra again
    simp [again] at distinct

/-! ### The command -/

theorem exec_planLoad (s : State) (tag : Byte) (payload : List Byte) : exec (.planLoad tag payload) s
    = command 0x20 tag payload (asked (readPlanLoad payload) fun ds t => plain (t.loadDescriptors ds)) s := rfl

theorem loadDescriptors_busy {s : State} (ds : List (Fin 32 × Option Descriptor)) (h : s.plans.current.isSome) :
    s.loadDescriptors ds = (s, .busy) := by
  simp [State.loadDescriptors, h]

theorem loadDescriptors_done {s : State} (ds : List (Fin 32 × Option Descriptor)) (h : s.plans.current = none) :
    s.loadDescriptors ds = ({ s with plans.table := written ds s.plans.table }, .done) := by
  simp [State.loadDescriptors, h, written]

/-- Settles O23, by the order of the table's writes: later ones leave what an earlier one wrote, since the indices differ. -/
theorem planLoadWritesWhole : Obligations.PlanLoadWritesWhole := by
  intro s tag payload h
  obtain ⟨⟨agenda, power, _⟩, _⟩ := id h
  rw [exec_planLoad]
  refine ⟨fun unread => ?_, fun ds read => ⟨fun busy => ?_, fun free => ?_⟩⟩
  · exact command_quiet h _ _ _ (fun l => ⟨l, by rw [unread]; rfl, carriesOn_refl l⟩) agenda power
  · refine command_quiet h _ _ _ (fun l => ⟨l, ?_, carriesOn_refl l⟩) agenda power
    rw [read, asked, loadDescriptors_busy (s := { s with link := l }) ds busy]
    rfl
  · obtain ⟨l, done, answered⟩ := command_quiet (t := { s with plans.table := written ds s.plans.table }) h 0x20 tag payload
      (act := asked (readPlanLoad payload) fun ds t => plain (t.loadDescriptors ds)) (status := .done) (data := .none)
      (fun l => ⟨l, by rw [read, asked, loadDescriptors_done (s := { s with link := l }) ds free]; rfl, carriesOn_refl l⟩) agenda power
    exact ⟨_, l, done, answered, written_named ds _ (readPlanLoad_nodup read), written_other ds _⟩

end Sys2Proof.MovePlans
end

