-- ==== Sys2Proof/Proofs/MovePlans/Frame.lean ====
section
/-! Which requests leave the plan executor's record alone, and what the others can do to it while the vehicle moves. -/

namespace Sys2Proof.MovePlans

open Sys2Proof.Machine

/-- Many operations of one kind that leave the plans, one after another. -/
theorem plans_foldl {α : Type} (f : State → α → State) (h : ∀ t x, (f t x).plans = t.plans) (l : List α) (s : State) :
    (l.foldl f s).plans = s.plans := by
  induction l generalizing s with
  | nil => rfl
  | cons x l ih => rw [List.foldl_cons, ih, h]

/-! ### The supply governor -/

@[simp] theorem plans_pausePump (s : State) : s.pausePump.plans = s.plans := by
  unfold State.pausePump
  split <;> simp
@[simp] theorem plans_decidePump (s : State) : s.decidePump.plans = s.plans := by
  unfold State.decidePump
  split <;> simp
@[simp] theorem plans_requestPump (s : State) : s.requestPump.plans = s.plans := by simp [State.requestPump]
@[simp] theorem plans_regrant (s : State) : s.regrant.plans = s.plans := by simp [State.regrant]
@[simp] theorem plans_unitsReturned (s : State) : s.unitsReturned.plans = s.plans := by simp [State.unitsReturned]
@[simp] theorem plans_dropPump (p : PumpState) (s : State) : (s.dropPump p).plans = s.plans := by
  unfold State.dropPump
  split <;> simp
@[simp] theorem plans_forcePause (s : State) : s.forcePause.plans = s.plans := by
  unfold State.forcePause
  split <;> simp
@[simp] theorem plans_findUnits (n : Nat) (s : State) : (s.findUnits n).plans = s.plans := by
  unfold State.findUnits
  dsimp only
  (repeat' split) <;> simp
@[simp] theorem plans_regimeOn (s : State) : s.regimeOn.plans = s.plans := by
  unfold State.regimeOn
  split <;> simp
@[simp] theorem plans_regimeOff (s : State) : s.regimeOff.plans = s.plans := by
  unfold State.regimeOff
  split <;> simp

/-! ### The axis drives and the claim unit -/

@[simp] theorem plans_startAxis (a : Fin 8) (k : MoveKind) (g : Goal) (s : State) : (s.startAxis a k g).plans = s.plans := rfl
@[simp] theorem plans_stopRequest (a : Fin 8) (c : StopCause) (s : State) : (s.stopRequest a c).plans = s.plans := rfl
@[simp] theorem plans_hold (a : Fin 8) (o : Owner) (s : State) : (s.hold a o).plans = s.plans := rfl
@[simp] theorem plans_replaceEntry (e : Entry) (s : State) : (s.replaceEntry e).plans = s.plans := by
  unfold State.replaceEntry
  split <;> rfl
@[simp] theorem plans_admitEntry (e : Entry) (s : State) : (s.admitEntry e).plans = s.plans := by
  unfold State.admitEntry
  dsimp only
  (repeat' split) <;> simp
@[simp] theorem plans_claim (e : Entry) (s : State) : (s.claim e).1.plans = s.plans := by
  unfold State.claim
  split <;> simp
@[simp] theorem plans_startUnits (es : List Entry) (s : State) : (s.startUnits es).plans = s.plans := by
  unfold State.startUnits
  dsimp only
  rw [State.call_plans, plans_foldl _ fun t e => by simp, State.recompute_plans, plans_foldl _ fun t e => by simp [State.takeStart],
    plans_findUnits]
@[simp] theorem plans_arbiter (s : State) : s.arbiter.plans = s.plans := by
  unfold State.arbiter
  dsimp only
  (repeat' split) <;> simp
@[simp] theorem plans_returnSlot (a : Fin 8) (r : MoveResult) (d : Option Dir) (ws : List Work) (s : State) :
    (s.returnSlot a r d ws).plans = s.plans := by
  unfold State.returnSlot
  (repeat' split) <;> simp
@[simp] theorem plans_settleOwner (a : Fin 8) (o : Owner) (s : State) : (s.settleOwner a o).plans = s.plans := by
  unfold State.settleOwner
  (repeat' split) <;> simp
@[simp] theorem plans_linkWithdrawn (a : Fin 8) (r : MoveResult) (s : State) : (s.linkWithdrawn a r).plans = s.plans := rfl
@[simp] theorem plans_ownerStop (o : Owner) (as : List (Fin 8)) (s : State) : (s.ownerStop o as).plans = s.plans := by
  unfold State.ownerStop
  dsimp only
  rw [State.call_plans, plans_foldl _ fun t e => by split <;> simp]
  exact plans_foldl _ (fun t a => plans_stopRequest a .owner t) _ _
@[simp] theorem plans_release (o : Owner) (c : StopCause) (s : State) : (s.release o c).plans = s.plans := by
  unfold State.release
  dsimp only
  rw [State.call_plans, plans_foldl _ fun t a => by simp]
  exact plans_foldl _ (fun t a => plans_stopRequest a c t) _ _

/-! ### The cell controller -/

@[simp] theorem plans_setBolster (c : Fin 12) (p : BolsterProgress) (s : State) : (s.setBolster c p).plans = s.plans := by
  unfold State.setBolster
  dsimp only
  (repeat' split) <;> simp
@[simp] theorem plans_reportBolster (c : Fin 12) (p : BolsterProgress) (s : State) : (s.reportBolster c p).plans = s.plans := by
  unfold State.reportBolster
  split <;> simp
@[simp] theorem plans_settlePump (b : Bool) (s : State) : (s.settlePump b).plans = s.plans := by
  unfold State.settlePump
  dsimp only
  (repeat' split) <;> simp
@[simp] theorem plans_placeCell (c : Fin 12) (s : State) : (s.placeCell c).plans = s.plans := by
  unfold State.placeCell
  dsimp only
  split <;> rfl
@[simp] theorem plans_joinQueue (c : Fin 12) (s : State) : (s.joinQueue c).plans = s.plans := by
  unfold State.joinQueue
  dsimp only
  split <;> simp
@[simp] theorem plans_leaveQueue (c : Fin 12) (s : State) : (s.leaveQueue c).plans = s.plans := by simp [State.leaveQueue]
@[simp] theorem plans_endVent (c : Fin 12) (s : State) : (s.endVent c).plans = s.plans := by
  unfold State.endVent
  dsimp only
  split <;> simp
@[simp] theorem plans_regulate (c : Fin 12) (s : State) : (s.regulate c).plans = s.plans := by
  unfold State.regulate
  dsimp only
  (repeat' split) <;> simp
@[simp] theorem plans_setTarget (c : Fin 12) (n : Nat) (o : CellOwner) (s : State) : (s.setTarget c n o).plans = s.plans := by
  unfold State.setTarget
  dsimp only
  (repeat' split) <;> simp
@[simp] theorem plans_emptyFillQueue (s : State) : s.emptyFillQueue.plans = s.plans := by
  have cleared : ∀ t : State, (t.cells.queue.foldl (fun u c => u.setCell c { u.cell c with fillTime := 0, valve := .hold }) t).plans
      = t.plans := fun t => plans_foldl _ (fun u c => State.setCell_plans c _ u) _ _
  unfold State.emptyFillQueue
  dsimp only
  split <;> simp [cleared]
@[simp] theorem plans_regulateAll (s : State) : s.regulateAll.plans = s.plans := plans_foldl _ (fun t c => plans_regulate c t) _ _
@[simp] theorem plans_braceSet (s : State) : s.braceSet.plans = s.plans := by
  have cell (c : Fin 12) (t : State) : (t.braceSetCell c).plans = t.plans := by
    simp only [State.braceSetCell]
    split <;> simp
  simp [State.braceSet, cell]
@[simp] theorem plans_returnBolsters (s : State) : s.returnBolsters.plans = s.plans := by
  unfold State.returnBolsters
  split <;> simp [State.braceReturn, State.supportSet]

/-! ### Heat and massage -/

@[simp] theorem plans_heatOff (s : State) : s.heatOff.plans = s.plans := by
  refine plans_foldl _ (fun t z => ?_) _ _
  unfold State.setMode State.workOutDemand
  dsimp only
  split <;> simp
@[simp] theorem plans_beginSession (p : Fin 8) (i : Nat) (s : State) : (s.beginSession p i).plans = s.plans := by
  have step (q : Fin 8) (t : State) : (t.showStep q).plans = t.plans := plans_foldl _ (fun u i => by split <;> simp) _ _
  unfold State.beginSession
  dsimp only
  rw [step, plans_foldl _ fun t i => by simp, State.postIf_plans]
@[simp] theorem plans_startMassage (p : Fin 8) (i : Nat) (s : State) : (s.startMassage p i).1.plans = s.plans := by
  unfold State.startMassage
  split <;> simp
@[simp] theorem plans_haltMassage (c : LastStop) (s : State) : (s.haltMassage c).plans = s.plans := by
  unfold State.haltMassage
  split
  · rfl
  · dsimp only
    rw [plans_foldl _ fun t i => by simp, State.post_plans]

/-! ### The brace controller -/

@[simp] theorem plans_braceDecide (s : State) : s.braceDecide.plans = s.plans := by simp [State.braceDecide]
@[simp] theorem plans_braceClaim (a : Fin 8) (s : State) : (s.braceClaim a).plans = s.plans := by
  unfold State.braceClaim
  dsimp only
  (repeat' split) <;> simp
@[simp] theorem plans_braceRest (s : State) : s.braceRest.plans = s.plans := by simp [State.braceRest]
@[simp] theorem plans_reBrace (s : State) : s.reBrace.plans = s.plans := by simp [State.reBrace]
@[simp] theorem plans_braceRequest (src : BraceSource) (s : State) : (s.braceRequest src).plans = s.plans := by
  have taken (t : State) : (t.takeBraceRequest src).plans = t.plans := by
    unfold State.takeBraceRequest
    dsimp only
    split <;> simp [State.braceEnter]
  unfold State.braceRequest
  split <;> simp [taken]
@[simp] theorem plans_enterRestoring (s : State) : s.enterRestoring.plans = s.plans := by simp [State.enterRestoring]
@[simp] theorem plans_bracedNext (s : State) : s.bracedNext.plans = s.plans := by
  unfold State.bracedNext
  (repeat' split) <;> simp
@[simp] theorem plans_claimRestore (a : Fin 8) (s : State) : (s.claimRestore a).plans = s.plans := by
  unfold State.claimRestore
  dsimp only
  (repeat' split) <;> simp
@[simp] theorem plans_restoreClaim (a : Fin 8) (s : State) : (s.restoreClaim a).plans = s.plans := by
  unfold State.restoreClaim
  split <;> simp
@[simp] theorem plans_braceFree (a : Fin 8) (s : State) : (s.braceFree a).plans = s.plans := by
  unfold State.braceFree
  (repeat' split) <;> simp
@[simp] theorem plans_finishRestore (s : State) : s.finishRestore.plans = s.plans := by
  unfold State.finishRestore
  dsimp only
  split <;> simp
@[simp] theorem plans_braceCheck (s : State) : s.braceCheck.plans = s.plans := by
  unfold State.braceCheck
  dsimp only
  (repeat' split) <;> simp
@[simp] theorem plans_endRestoreBySwitch (s : State) : s.endRestoreBySwitch.plans = s.plans := by simp [State.endRestoreBySwitch]

/-! ### The switch scanner -/

@[simp] theorem plans_oppose (a : Fin 8) (s : State) : (s.oppose a).plans = s.plans := by
  unfold State.oppose
  dsimp only
  split <;> simp
@[simp] theorem plans_switchClaim (a : Fin 8) (d : Dir) (s : State) : (s.switchClaim a d).plans = s.plans := by
  unfold State.switchClaim
  dsimp only
  split <;> simp
@[simp] theorem plans_switchResult (a : Fin 8) (d : Option Dir) (s : State) : (s.switchResult a d).plans = s.plans := by
  unfold State.switchResult
  (repeat' split) <;> simp
@[simp] theorem plans_switchFree (a : Fin 8) (s : State) : (s.switchFree a).plans = s.plans := by
  unfold State.switchFree
  dsimp only
  (repeat' split) <;> simp
@[simp] theorem plans_axisAct (a : Fin 8) (d : Dir) (s : State) : (s.axisAct a d).plans = s.plans := by
  unfold State.axisAct
  (repeat' split) <;> simp
@[simp] theorem plans_pressTaken (c : Contact) (s : State) : (s.pressTaken c).plans = s.plans := by
  have ignored : (s.pressIgnored c).plans = s.plans := by
    unfold State.pressIgnored
    dsimp only
    (repeat' split) <;> simp
  unfold State.pressTaken
  (repeat' split) <;> simp [ignored]
@[simp] theorem plans_releaseAct (c : Contact) (s : State) : (s.releaseAct c).plans = s.plans := by
  unfold State.releaseAct State.unoppose
  (repeat' split) <;> simp
@[simp] theorem plans_storeProfile (p : Fin 6) (m : CaptureMask) (o : Source) (s : State) :
    (s.storeProfile p m o).1.plans = s.plans := by
  unfold State.storeProfile State.changeProfile
  (repeat' split) <;> simp
@[simp] theorem plans_shutdownRest (s : State) : s.shutdownRest.plans = s.plans := by simp [State.shutdownRest]

end Sys2Proof.MovePlans
end

