-- ==== Sys2Proof/Proofs/MovePlans/Vehicle.lean ====
section
/-! While the vehicle moves no request makes a plan RUNNING or fills NEXT (R79): the invariant behind O26's first part. -/

namespace Sys2Proof.MovePlans

open Sys2Proof.Machine

/-- The plan executor while the vehicle moves: NEXT is empty and CURRENT not RUNNING. -/
structure Halted (p : Plans) : Prop where
  moving : p.vehicle = .moving
  noNext : p.next = none
  notRunning : ∀ q, p.current = some q → q.state ≠ .running

/-! ### What a plan request does to plans that are halted -/

/-- A change of CURRENT that keeps its state keeps plans halted. -/
theorem Halted.onCurrent {s : State} (h : Halted s.plans) (f : Plan → Plan) (hf : ∀ q, (f q).state = q.state) :
    Halted (s.onCurrent f).plans where
  moving := h.moving
  noNext := h.noNext
  notRunning q hq := by
    obtain ⟨p, hp, rfl⟩ := Option.map_eq_some_iff.mp hq
    rw [hf]
    exact h.notRunning p hp

theorem leaveFlight_state (a : Fin 8) (p : Plan) : (p.leaveFlight a).state = p.state := rfl

/-- Without a RUNNING plan there is nothing to begin. -/
theorem Halted.planBegin {s : State} (h : Halted s.plans) : s.planBegin = s := by
  unfold State.planBegin
  split
  · rfl
  next p hp => simp [h.notRunning p hp]

theorem Halted.planFree {s : State} (h : Halted s.plans) (a : Fin 8) : s.planFree a = s := by
  unfold State.planFree
  split
  · rfl
  next p hp => simp [h.notRunning p hp]

theorem Halted.planClaim {s : State} (h : Halted s.plans) (a : Fin 8) : s.planClaim a = s := by
  unfold State.planClaim
  split
  · rfl
  next p hp =>
    split
    · rfl
    · simp [h.notRunning p hp]

theorem Halted.planClaimGroup {s : State} (h : Halted s.plans) : s.planClaimGroup = s := by
  unfold State.planClaimGroup
  split
  · rfl
  next p hp => simp [h.notRunning p hp]

theorem Halted.planStarted {s : State} (h : Halted s.plans) (a : Fin 8) : Halted (s.planStarted a).plans :=
  h.onCurrent _ fun q => by split <;> rfl

theorem Halted.planResult {s : State} (h : Halted s.plans) (a : Fin 8) (r : MoveResult) : Halted (s.planResult a r).plans := by
  unfold State.planResult
  split
  · exact h
  next p hp =>
    rw [if_neg (h.notRunning p hp)]
    exact h.onCurrent _ fun q => by dsimp only; split <;> rfl

theorem Halted.planWithdrawn {s : State} (h : Halted s.plans) (a : Fin 8) (r : MoveResult) : Halted (s.planWithdrawn a r).plans := by
  unfold State.planWithdrawn
  split
  · exact h
  next p hp =>
    rw [if_neg (h.notRunning p hp)]
    exact h.onCurrent _ (leaveFlight_state a)

/-- An ENDING plan may leave CURRENT; nothing is there to be promoted. -/
theorem Halted.planCheck {s : State} (h : Halted s.plans) : Halted s.planCheck.plans := by
  have left (p : Plan) (o : PlanOutcome) : Halted (s.leaveCurrent p o).plans := by
    simp only [State.leaveCurrent, h.noNext, State.postIf_plans]
    exact ⟨h.moving, rfl, fun q hq => nomatch hq⟩
  unfold State.planCheck
  split
  · exact h
  next p hp =>
    split
    · exact h
    · split
      · exact left _ _
      · exact h
    next running => exact absurd running (h.notRunning p hp)

/-- An abort leaves NEXT empty, and CURRENT not RUNNING. -/
theorem planAbort_halts {s : State} (moving : s.plans.vehicle = .moving) (why : Reason)
    (h : s.plans.current = none → s.plans.next = none) : Halted (s.planAbort why).plans := by
  unfold State.planAbort
  split
  next none => exact ⟨moving, h none, fun q hq => by simp [none] at hq⟩
  next p hp =>
    dsimp only
    split
    · exact ⟨moving, rfl, fun q hq => by obtain rfl := Option.some.inj hq; simp⟩
    next rest =>
      rw [State.postIf_plans]
      exact ⟨moving, rfl, fun q hq => by obtain rfl := Option.some.inj hq; exact rest⟩

/-- A recall is not accepted while the vehicle moves (R92). -/
theorem recall_moving {s : State} (moving : s.plans.vehicle = .moving) (p : Fin 6) (o : Source) : (s.recall p o).1 = s := by
  have refused : ∀ slot, s.decideRecall p ≠ .accepted slot := fun slot => by
    unfold State.decideRecall
    rw [if_pos moving]
    (repeat' split) <;> simp
  unfold State.recall
  split
  next slot accepted => exact absurd accepted (refused slot)
  · rfl

/-- So a memory button starts nothing. -/
theorem plans_memoryAct {s : State} (moving : s.plans.vehicle = .moving) (m : Fin 3) (found : Bool) :
    (s.memoryAct m found).plans = s.plans := by
  unfold State.memoryAct
  dsimp only
  (repeat' split) <;> simp [recall_moving moving]

/-! ### The invariant -/

/-- No request ends a halt. -/
theorem Halted.doWork {s : State} (h : Halted s.plans) (w : Work) : Halted (doWork w s).plans := by
  have same {t : State} (e : t.plans = s.plans) : Halted t.plans := e ▸ h
  cases w with
  | arbiter => exact same (plans_arbiter s)
  | started o a =>
    cases o with
    | plan => exact h.planStarted a
    | brace => exact same (State.onBraceAxis_plans _ _ _)
    | link | switch | none => exact h
  | moveOver a r d => exact same (plans_returnSlot _ _ _ _ _)
  | completed a d => exact same (plans_returnSlot _ _ _ _ _)
  | result o a r d =>
    cases o with
    | plan => exact h.planResult a r
    | brace => exact same (State.onBraceAxis_plans _ _ _)
    | switch => exact same (plans_switchResult a d s)
    | link | none => exact h
  | settleOwner a o => exact same (plans_settleOwner a o s)
  | tellFree a => exact h
  | braceFree a => exact same (plans_braceFree a s)
  | switchFree a => exact same (plans_switchFree a s)
  | planFree a => exact same (congrArg State.plans (h.planFree a))
  | withdrawn e r =>
    rw [Machine.doWork, State.reportWithdrawn]
    split
    · exact h.planWithdrawn e.axis r
    · exact same (State.onBraceAxis_plans _ _ _)
    · exact same (plans_switchResult _ _ s)
    · exact same (plans_linkWithdrawn _ _ s)
    · exact h
  | ownerStop o as => exact same (plans_ownerStop o as s)
  | release o c => exact same (plans_release o c s)
  | planAbort r => exact planAbort_halts h.moving r fun _ => h.noNext
  | planBegin => exact same (congrArg State.plans h.planBegin)
  | planClaim a => exact same (congrArg State.plans (h.planClaim a))
  | planClaimGroup => exact same (congrArg State.plans h.planClaimGroup)
  | planCheck => exact h.planCheck
  | braceRequest src => exact same (plans_braceRequest src s)
  | braceDecide => exact same (plans_braceDecide s)
  | braceClaim a => exact same (plans_braceClaim a s)
  | restoreClaim a => exact same (plans_restoreClaim a s)
  | braceRest => exact same (plans_braceRest s)
  | bracedNext => exact same (plans_bracedNext s)
  | braceCheck => exact same (plans_braceCheck s)
  | pressTaken c => exact same (plans_pressTaken c s)
  | pressAct c found =>
    cases c with
    | axis a d => exact same (plans_axisAct a d s)
    | set => exact h
    | mem m => exact same (plans_memoryAct h.moving m found)
  | switchClaim a d => exact same (plans_switchClaim a d s)
  | releaseAct c => exact same (plans_releaseAct c s)
  | shutdownRest => exact same (plans_shutdownRest s)

/-- A step whose first request aborts the plan while the vehicle moves ends with the plans halted. -/
theorem finish_halted {s : State} (moving : s.plans.vehicle = .moving) (why : Reason) (agenda : s.agenda = [.planAbort why])
    (h : s.plans.current = none → s.plans.next = none) : Halted s.finish.plans := by
  rw [finish_plans, show Config.agendaFuel = 19999 + 1 from rfl, drain_request _ _ _ _ agenda]
  exact drain_keeps (fun t => Halted t.plans) (fun _ _ h => h) (fun w _ h => h.doWork w) _ _
    (planAbort_halts (s := { s with agenda := [] }) moving why h)

/-! ### The command -/

theorem exec_vehicle (s : State) (tag : Byte) (payload : List Byte) : exec (.vehicle tag payload) s
    = command 0x06 tag payload (asked (readVehicle payload) fun v t => (t.setVehicle v, (.done, .none))) s := rfl

/-- The vehicle state that a byte in range gives (R79). -/
def vehicleOf (b : Byte) : Vehicle := if b = 1 then .moving else .parked

theorem readVehicle_of {b : Byte} (h : b.toNat ≤ 1) : readVehicle [b] = some (vehicleOf b) := by
  have range : b = 0 ∨ b = 1 := by bv_omega
  rcases range with rfl | rfl <;> rfl

theorem setVehicle_same {s : State} {v : Vehicle} (h : s.plans.vehicle = v) : s.setVehicle v = s := by
  simp [State.setVehicle, h]

theorem setVehicle_parked {s : State} (h : s.plans.vehicle ≠ .parked) :
    s.setVehicle .parked = State.post .plan { s with plans.vehicle := .parked } := by
  simp [State.setVehicle, h]

theorem setVehicle_moving {s : State} (h : s.plans.vehicle ≠ .moving) :
    s.setVehicle .moving = State.call [.planAbort .vehicleMoving] (State.post .plan { s with plans.vehicle := .moving }) := by
  simp [State.setVehicle, h]

theorem setVehicle_vehicle (s : State) (v : Vehicle) : (s.setVehicle v).plans.vehicle = v := by
  unfold State.setVehicle
  split
  · assumption
  · split <;> rfl

/-- No request touches the vehicle state. -/
theorem finish_vehicle (s : State) : s.finish.plans.vehicle = s.plans.vehicle := by
  rw [finish_plans]
  exact congrArg (fun f => f.plans.2) (fixed_drain Config.agendaFuel s)

/-- The first part of O26. -/
theorem vehicleMovingEndsThePlans : Spec.VehicleMovingEndsThePlans := by
  intro s tag b h noNext range
  obtain ⟨⟨agenda, power, _⟩, _⟩ := id h
  obtain ⟨l, heard, taken⟩ := command_taken h 0x06 tag [b] (asked (readVehicle [b]) fun v t => (t.setVehicle v, (.done, .none)))
  simp only [readVehicle_of range, asked] at taken
  have vehicle := (finish_vehicle (replied ⟨0x06, tag, [b]⟩ (({ s with link := l } : State).setVehicle (vehicleOf b), .done, .none))).trans
    (setVehicle_vehicle { s with link := l } (vehicleOf b))
  have unchanged : s.plans.vehicle = vehicleOf b → ∃ n,
      (replied ⟨0x06, tag, [b]⟩ (({ s with link := l } : State).setVehicle (vehicleOf b), .done, .none)).finish = { s with link := n } := by
    intro same
    rw [setVehicle_same (s := { s with link := l }) same]
    obtain ⟨n, end_eq, _⟩ := replied_quiet heard (carriesOn_refl l) agenda power
    exact ⟨n, end_eq⟩
  refine ⟨_, by rw [exec_vehicle, readVehicle_of range]; exact taken, finish_slot _, vehicle, fun same => ?_, ?_, ?_⟩
  · obtain ⟨n, end_eq⟩ := unchanged (same.trans vehicle)
    rw [end_eq]
  · rintro rfl
    by_cases same : s.plans.vehicle = .parked
    · obtain ⟨n, end_eq⟩ := unchanged same
      rw [end_eq, ← same]
    · obtain ⟨n, end_eq, _⟩ := replied_quiet (t := { s with plans.vehicle := .parked }) heard
        (post_carriesOn .plan { s with plans.vehicle := .parked, link := l }) agenda power
      rw [show vehicleOf 0 = .parked from rfl, setVehicle_parked (s := { s with link := l }) same]
      exact end_eq ▸ rfl
  · rintro rfl parked
    rw [show vehicleOf 1 = .moving from rfl, setVehicle_moving (s := { s with link := l }) (by simp [parked])]
    have halted := finish_halted (s := replied ⟨0x06, tag, [1]⟩ ((State.call [.planAbort .vehicleMoving]
      (State.post .plan { s with plans.vehicle := .moving, link := l })), .done, .none)) rfl .vehicleMoving
      (by change _ ++ s.agenda = _; rw [agenda]; rfl) noNext
    exact ⟨halted.noNext, halted.notRunning⟩

end Sys2Proof.MovePlans
end

