-- ==== Sys2Proof/Proofs/MovePlans/Ends.lean ====
section
/-! How a plan leaves CURRENT: the release of its claims, the judgement of the plan executor, and the end of a pause (O26). -/

namespace Sys2Proof.MovePlans

open Sys2Proof.Machine

/-! ### Requests that find nothing to do -/

theorem arbiter_unqueued {s : State} (h : s.claims.queue = []) : s.arbiter = s := by
  simp [State.arbiter, h, State.startUnit]

theorem braceCheck_idle {s : State} (h : s.brace.state = .idle) : s.braceCheck = s := by
  simp [State.braceCheck, h]

theorem tellFree_unheld {s : State} {a : Fin 8} (h : s.claims.held[a] = ⟨false, false, false⟩) : s.tellFree a = s := by
  have same : s.claims.held.set a ⟨false, false, false⟩ = s.claims.held := by
    rw [← h]
    exact Vector.set_getElem_self _
  simp [State.tellFree, h, State.call, same]

/-! ### A release with nothing queued -/

/-- The axes after a release: an owner's moves are sent a stop request (R41). -/
def releasedAxes (o : Owner) (c : StopCause) (s : State) : Vector Axis 8 :=
  Vector.ofFn fun a => if s.movingFor a o then (s.axis a).stop c else s.axis a

/-- The owners after a release: an owner's axes return to NONE (R41). -/
def releasedOwners (o : Owner) (s : State) : Vector Owner 8 :=
  Vector.ofFn fun a => if s.owner a = o then .none else s.owner a

/-- Stop requests to different axes. -/
theorem foldl_stopRequest (c : StopCause) (as : List (Fin 8)) (different : as.Nodup) (s : State) :
    ∃ l, as.foldl (fun t a => t.stopRequest a c) s
      = { s with axes := Vector.ofFn fun a => if a ∈ as then (s.axis a).stop c else s.axis a, link := l } := by
  induction as generalizing s with
  | nil =>
    refine ⟨s.link, ?_⟩
    have same : (Vector.ofFn fun a => s.axis a) = s.axes := by
      ext i hi
      simp [State.axis]
    simp [same]
  | cons x as ih =>
    obtain ⟨fresh, rest⟩ := List.nodup_cons.mp different
    obtain ⟨l, hl⟩ := ih rest (s.stopRequest x c)
    have axes : (Vector.ofFn fun a => if a ∈ as then ((s.stopRequest x c).axis a).stop c else (s.stopRequest x c).axis a)
        = Vector.ofFn fun a => if a ∈ x :: as then (s.axis a).stop c else s.axis a := by
      ext1 i hi
      by_cases same : x.val = i
      · subst same
        simp [fresh, State.axis, State.stopRequest]
      · have other : (⟨i, hi⟩ : Fin 8) ≠ x := fun e => same (e ▸ rfl)
        simp [State.axis, State.stopRequest, same, other]
    exact ⟨l, by rw [List.foldl_cons, hl, axes]; rfl⟩

/-- Owners returned to NONE. -/
theorem foldl_setOwner (as : List (Fin 8)) (s : State) :
    ∃ l, as.foldl (fun t a => t.setOwner a .none) s
      = { s with claims.owners := Vector.ofFn fun a => if a ∈ as then .none else s.owner a, link := l } := by
  induction as generalizing s with
  | nil =>
    refine ⟨s.link, ?_⟩
    have same : (Vector.ofFn fun a => s.owner a) = s.claims.owners := by
      ext i hi
      simp [State.owner]
    simp [same]
  | cons x as ih =>
    obtain ⟨l, hl⟩ := ih (s.setOwner x .none)
    have owners : (Vector.ofFn fun a => if a ∈ as then .none else (s.setOwner x .none).owner a)
        = Vector.ofFn fun a => if a ∈ x :: as then .none else s.owner a := by
      ext1 i hi
      by_cases same : x.val = i
      · subst same
        simp [State.owner, State.setOwner, postIf_eq]
      · have other : (⟨i, hi⟩ : Fin 8) ≠ x := fun e => same (e ▸ rfl)
        simp [State.owner, State.setOwner, postIf_eq, same, other]
    exact ⟨l, by rw [List.foldl_cons, hl, owners, State.setOwner, postIf_eq]⟩

theorem release_unqueued (o : Owner) (c : StopCause) {s : State} (h : s.claims.queue = []) :
    ∃ l, s.release o c = { s with
      axes := releasedAxes o c s, claims.owners := releasedOwners o s, link := l
      agenda := (allAxes.filter fun a => s.owner a == o).map .tellFree ++ .arbiter :: s.agenda } := by
  obtain ⟨m, stopped⟩ := foldl_stopRequest c (allAxes.filter fun a => s.movingFor a o) ((List.nodup_finRange 8).filter _) s
  simp only [List.mem_filter, allAxes, List.mem_finRange, true_and] at stopped
  obtain ⟨l, owned⟩ := foldl_setOwner (allAxes.filter fun a => s.owner a == o) { s with axes := releasedAxes o c s, link := m }
  simp only [List.mem_filter, allAxes, List.mem_finRange, true_and, beq_iff_eq] at owned
  refine ⟨l, ?_⟩
  unfold State.release
  simp only [allAxes, stopped, h, List.filter_nil, List.map_nil, List.nil_append]
  rw [← h]
  refine (congrArg (State.call _) owned).trans ?_
  simp [State.call, releasedOwners, State.owner]

/-- A release of an owner that holds nothing only runs the arbiter. -/
theorem release_unowned (o : Owner) (c : StopCause) {s : State} (h : s.claims.queue = [])
    (free : ∀ a : Fin 8, s.owner a ≠ o ∧ s.movingFor a o = false) : s.release o c = s.call [.arbiter] := by
  have still : (allAxes.filter fun a => s.movingFor a o) = [] := by simp [free]
  have unowned : (allAxes.filter fun a => s.owner a == o) = [] := by simp [free]
  simp only [State.release, still, unowned, h, List.foldl_nil, List.filter_nil, List.map_nil, List.nil_append]
  rw [← h]

/-- The release of a plan that holds nothing, carried through. -/
theorem reaches_release_unowned {s : State} {o : Owner} {c : StopCause} {ws : List Work} (agenda : s.agenda = .release o c :: ws)
    (h : s.claims.queue = []) (free : ∀ a : Fin 8, s.owner a ≠ o ∧ s.movingFor a o = false) :
    Reaches 2 s { s with agenda := ws } :=
  (Reaches.one agenda (release_unowned (s := { s with agenda := ws }) o c h free)).trans
    (Reaches.one rfl (arbiter_unqueued (s := { s with agenda := ws }) h))

/-- HELD claimants are told of axes that nobody waits for. -/
theorem reaches_tellFree {s : State} {as : List (Fin 8)} {ws : List Work} (agenda : s.agenda = as.map .tellFree ++ ws)
    (unheld : ∀ a : Fin 8, s.claims.held[a] = ⟨false, false, false⟩) : Reaches as.length s { s with agenda := ws } := by
  induction as generalizing s with
  | nil =>
    rw [show s = { s with agenda := ws } by rw [← show s.agenda = ws from agenda]]
    exact Reaches.refl _
  | cons a as ih =>
    rw [List.length_cons, Nat.add_comm]
    exact (Reaches.one agenda (tellFree_unheld (unheld a))).trans (ih rfl unheld)

/-- The release of an owner for whose axes nobody waits, carried through. -/
theorem reaches_release {s : State} {o : Owner} {c : StopCause} {ws : List Work} (agenda : s.agenda = .release o c :: ws)
    (h : s.claims.queue = []) (unheld : ∀ a : Fin 8, s.claims.held[a] = ⟨false, false, false⟩) :
    ∃ k ≤ 10, ∃ l, Reaches k s { s with
      axes := releasedAxes o c s, claims.owners := releasedOwners o s, link := l, agenda := ws } := by
  obtain ⟨l, released⟩ := release_unqueued (s := { s with agenda := ws }) o c h
  have few : (allAxes.filter fun a => s.owner a == o).length ≤ 8 := (List.length_filter_le _ _).trans (by decide)
  exact ⟨1 + (allAxes.filter fun a => s.owner a == o).length + 1, by omega, l,
    ((Reaches.one agenda released).trans (reaches_tellFree rfl unheld)).trans (Reaches.one rfl (arbiter_unqueued h))⟩

/-! ### The judgement of a plan -/

/-- The plan executor's record when a plan has left CURRENT and NEXT is empty (R65). -/
def leftBy (p : Plan) (o : PlanOutcome) (x : Plans) : Plans := { x with current := none, last := some (p.toLast o) }

/-- The plan executor's record when a plan has left CURRENT and another has been promoted (R65). -/
def promoted (p : Plan) (o : PlanOutcome) (q : Plan) (x : Plans) : Plans :=
  { x with current := some { q with state := .running }, next := none, last := some (p.toLast o) }

theorem leaveCurrent_last {s : State} (p : Plan) (o : PlanOutcome) (h : s.plans.next = none) :
    ∃ l, s.leaveCurrent p o = { s with plans := leftBy p o s.plans, link := l } := by
  unfold State.leaveCurrent
  dsimp only
  rw [postIf_eq]
  split
  · exact ⟨_, rfl⟩
  next q some => simp [h] at some

theorem leaveCurrent_promotes {s : State} (p q : Plan) (o : PlanOutcome) (h : s.plans.next = some q) :
    ∃ l, s.leaveCurrent p o = { s with plans := promoted p o q s.plans, link := l, agenda := .planBegin :: s.agenda } := by
  unfold State.leaveCurrent
  dsimp only
  rw [postIf_eq]
  split
  next none => simp [h] at none
  next r some =>
    obtain rfl := Option.some.inj (h.symm.trans some)
    exact ⟨_, rfl⟩

/-- The plan executor judges what has been reached. -/
theorem reaches_planCheck {s t : State} (e : s.planCheck = t) : Reaches 1 (s.call [.planCheck]) t := Reaches.called .planCheck e

/-- An ENDING plan with its outcome and nothing in flight leaves (R65). -/
theorem planCheck_leaves {s : State} {p : Plan} {o : PlanOutcome} (current : s.plans.current = some p) (ending : p.state = .ending)
    (outcome : p.outcome = some o) (rest : p.inFlight = []) : s.planCheck = s.leaveCurrent p o := by
  simp [State.planCheck, current, ending, outcome, rest]

/-- An ENDING plan with moves in flight waits for them (R65). -/
theorem planCheck_waits {s : State} {p : Plan} (current : s.plans.current = some p) (ending : p.state = .ending)
    (flying : p.inFlight ≠ []) : s.planCheck = s := by
  simp [State.planCheck, current, ending, flying]

/-- A plan that is ENDING, with nothing claimed and nothing in flight, leaves once its claims are released. -/
theorem reaches_left {s : State} {p : Plan} {o : PlanOutcome} {c : StopCause} {ws : List Work}
    (agenda : s.agenda = .release .plan c :: .planCheck :: ws) (current : s.plans.current = some p) (ending : p.state = .ending) (outcome : p.outcome = some o) (rest : p.inFlight = [])
    (unqueued : s.claims.queue = []) (free : ∀ a : Fin 8, s.owner a ≠ .plan ∧ s.movingFor a .plan = false)
    (noNext : s.plans.next = none) : ∃ l, Reaches 3 s { s with plans := leftBy p o s.plans, agenda := ws, link := l } := by
  obtain ⟨l, left⟩ := leaveCurrent_last (s := { s with agenda := ws }) p o noNext
  exact ⟨l, (reaches_release_unowned agenda unqueued free).trans
    (Reaches.one rfl ((planCheck_leaves (s := { s with agenda := ws }) current ending outcome rest).trans left))⟩

/-! ### The end of a pause -/

/-- A plan whose pause has run out (R70). -/
def unpaused (p : Plan) : Plan := { p with pauseLeft := none }

theorem pauseExpiry_running {s : State} {p : Plan} {left : Nat} (current : s.plans.current = some p) (running : p.state = .running)
    (paused : p.pauseLeft = some left) :
    s.pauseExpiry = (s.setCurrent (some (unpaused p))).call [.planCheck] := by
  simp [State.pauseExpiry, current, running, paused, State.onCurrent, State.setCurrent, unpaused]

/-- The step of a pause is finished with its time. -/
theorem stepFinished_unpaused {s : State} {p : Plan} {i : Fin 32} {length : Nat} {next : Option (Fin 32)}
    (step : p.step = some (.descriptor i)) (table : s.plans.table[i] = some (.pause length next)) :
    s.stepFinished (unpaused p) = true := by
  have step' : (unpaused p).step = some (.descriptor i) := step
  simp only [State.stepFinished, step', table]
  rfl

/-- So the plan goes on from it. -/
theorem planCheck_unpaused {s : State} {p : Plan} {i : Fin 32} {length : Nat} {next : Option (Fin 32)}
    (current : s.plans.current = some (unpaused p)) (running : p.state = .running) (notAtEnd : p.atEnd = false)
    (step : p.step = some (.descriptor i)) (table : s.plans.table[i] = some (.pause length next)) :
    s.planCheck = s.planAdvance (unpaused p) := by
  have running' : (unpaused p).state = .running := running
  have notAtEnd' : (unpaused p).atEnd = false := notAtEnd
  simp [State.planCheck, current, running', notAtEnd', stepFinished_unpaused step table]

theorem planAdvance_end {s : State} {p : Plan} {i : Fin 32} {d : Descriptor} (step : p.step = some (.descriptor i))
    (table : s.plans.table[i] = some d) (last : d.next = none) : s.planAdvance p = s.planAtEnd := by
  simp [State.planAdvance, step, table, last]

theorem planAdvance_loop {s : State} {p : Plan} {i n : Fin 32} {d : Descriptor} (step : p.step = some (.descriptor i))
    (table : s.plans.table[i] = some d) (next : d.next = some n) (steps : 64 ≤ p.steps) : s.planAdvance p = s.planAbort .loopLimit := by
  simp [State.planAdvance, step, table, next, Config.loopLimit, steps]

/-- A chain at its end with nothing in flight leaves (R72). -/
theorem planCheck_atEnd {s : State} {p : Plan} (current : s.plans.current = some p) (running : p.state = .running)
    (atEnd : p.atEnd = true) (rest : p.inFlight = []) : s.planCheck = s.leaveCurrent p p.endOutcome := by
  simp [State.planCheck, current, running, atEnd, rest]

/-- A plan that is aborted while its moves settle (R76). -/
def aborted (why : Reason) (p : Plan) : Plan := { p with state := .ending, outcome := some (.aborted why), pauseLeft := none }

theorem planAbort_running {s : State} {p : Plan} (why : Reason) (current : s.plans.current = some p) (running : p.state = .running)
    (noNext : s.plans.next = none) :
    ∃ l, s.planAbort why = { s with
      plans.current := some (aborted why p), link := l, agenda := .release .plan (.preempt why) :: .planCheck :: s.agenda } := by
  refine ⟨(s.post .plan).link, ?_⟩
  simp [State.planAbort, current, running, noNext, aborted, State.call, State.post]

theorem exec_pauseExpiry {s : State} (h : s.atEase) : exec .pauseExpiry s = .next s.pauseExpiry.finish :=
  event_live _ _ (atEase_live h)

/-- The second part of O26. -/
theorem pauseExpiryEndsAChain : Spec.PauseExpiryEndsAChain := by
  intro s p i length left next h current running step table paused rest notAtEnd noNext unqueued _ free
  obtain ⟨agenda, power, _⟩ := id h
  have expired := pauseExpiry_running current running paused
  rw [exec_pauseExpiry h, expired]
  have advanced := planCheck_unpaused (s := s.setCurrent (some (unpaused p))) rfl running notAtEnd step table
  constructor
  · rintro rfl
    have ended := advanced.trans (planAdvance_end (s := s.setCurrent (some (unpaused p))) step table rfl)
    obtain ⟨l, left⟩ := leaveCurrent_last (s := s.setCurrent (some { unpaused p with atEnd := true })) { unpaused p with atEnd := true }
      _ noNext
    have leaves := (planCheck_atEnd (s := s.setCurrent (some { unpaused p with atEnd := true })) rfl running rfl rest).trans left
    obtain ⟨end_eq, carried⟩ := ((reaches_planCheck ended).trans (reaches_planCheck leaves)).finish agenda power (by decide)
    exact ⟨_, congrArg _ end_eq, carried⟩
  · intro more steps
    obtain ⟨n, rfl⟩ := Option.ne_none_iff_exists'.mp more
    obtain ⟨l, abort⟩ := planAbort_running (s := s.setCurrent (some (unpaused p))) .loopLimit rfl running noNext
    have stopped := advanced.trans
      ((planAdvance_loop (s := s.setCurrent (some (unpaused p))) (p := unpaused p) step table rfl steps).trans abort)
    obtain ⟨m, left⟩ := reaches_left (s := { s with
        plans.current := some (aborted .loopLimit (unpaused p)), link := l
        agenda := .release .plan (.preempt .loopLimit) :: .planCheck :: s.agenda })
      rfl rfl rfl rfl rest unqueued free noNext
    obtain ⟨end_eq, _⟩ := ((reaches_planCheck stopped).trans left).finish agenda power (by decide)
    refine ⟨_, rfl, ?_, ?_, ?_⟩ <;> rw [end_eq] <;> rfl

/-- Settles O26: the vehicle's part by the invariant of halted plans, the pause's by following its requests. -/
theorem vehicleAndPauseEndPlans : Obligations.VehicleAndPauseEndPlans := ⟨vehicleMovingEndsThePlans, pauseExpiryEndsAChain⟩

end Sys2Proof.MovePlans
end

