-- ==== Sys2Proof/Proofs/MovePlans/Cancel.lean ====
section
/-! PLAN_CANCEL of each target (O25), and how a chain begins at a pause. -/

namespace Sys2Proof.MovePlans

open Sys2Proof.Machine

/-! ### The beginning of a chain -/

/-- A plan at the beginning of a step (R66). -/
def entering (step : StepRef) (p : Plan) : Plan := { p with step := some step, steps := p.steps + 1, entries := [], pauseLeft := none }

theorem planBegin_chain {s : State} {p : Plan} {i : Fin 32} (current : s.plans.current = some p) (running : p.state = .running)
    (fresh : p.step = none) (chain : p.kind = .chain i) : s.planBegin = s.beginStep (.descriptor i) := by
  simp [State.planBegin, current, running, fresh, chain]

/-- A chain that begins at a pause has the pause's time (R70). -/
theorem planBegin_pause {s : State} {p : Plan} {i : Fin 32} {length : Nat} {next : Option (Fin 32)}
    (current : s.plans.current = some p) (running : p.state = .running) (fresh : p.step = none) (chain : p.kind = .chain i)
    (table : s.plans.table[i] = some (.pause length next)) :
    s.planBegin = s.setCurrent (some { entering (.descriptor i) p with pauseLeft := some (length * 10) }) := by
  rw [planBegin_chain current running fresh chain]
  simp [State.beginStep, current, table, State.setCurrent, State.onCurrent, entering]

/-- The plan in CURRENT begins. -/
theorem reaches_planBegin {s t : State} (e : s.planBegin = t) : Reaches 1 (s.call [.planBegin]) t := Reaches.called .planBegin e

/-- A waiting chain that has been promoted and stands at a pause. -/
def startedAtPause (i : Fin 32) (length : Nat) (q : Plan) : Plan :=
  { entering (.descriptor i) { q with state := .running } with pauseLeft := some (length * 10) }

/-- A plan that is ENDING, with nothing claimed and nothing in flight, makes way for the one in NEXT, here a chain that begins at a
pause (R65). -/
theorem reaches_promoted {s : State} {p q : Plan} {o : PlanOutcome} {c : StopCause} {i : Fin 32} {length : Nat}
    {after : Option (Fin 32)} {ws : List Work} (agenda : s.agenda = .release .plan c :: .planCheck :: ws)
    (current : s.plans.current = some p) (ending : p.state = .ending) (outcome : p.outcome = some o) (rest : p.inFlight = [])
    (unqueued : s.claims.queue = []) (free : ∀ a : Fin 8, s.owner a ≠ .plan ∧ s.movingFor a .plan = false)
    (next : s.plans.next = some q) (chain : q.kind = .chain i) (fresh : q.step = none)
    (table : s.plans.table[i] = some (.pause length after)) :
    ∃ l, Reaches 4 s { s with
      plans := { promoted p o q s.plans with current := some (startedAtPause i length q) }, link := l, agenda := ws } := by
  obtain ⟨l, promotes⟩ := leaveCurrent_promotes (s := { s with agenda := ws }) p q o next
  have checked := (planCheck_leaves (s := { s with agenda := ws }) current ending outcome rest).trans promotes
  have begins := planBegin_pause (s := { s with plans := promoted p o q s.plans, link := l, agenda := ws })
    (p := { q with state := .running }) rfl rfl fresh chain table
  exact ⟨l, ((reaches_release_unowned agenda unqueued free).trans (reaches_planCheck checked)).trans (reaches_planBegin begins)⟩

/-! ### The parts of a cancel -/

/-- The plan executor's record with NEXT emptied, the discard kept for the last result (R78). -/
def emptied (x : Plans) : Plans :=
  if x.next.isSome then { x with current := x.current.map fun p => { p with nextDiscard := some .cancel }, next := none } else x

theorem emptyNext_eq (s : State) : ∃ m, s.emptyNext .cancel = { s with plans := emptied s.plans, link := m } ∧ s.link.carriesOn m := by
  unfold State.emptyNext emptied
  cases s.plans.next with
  | none => exact ⟨s.link, rfl, carriesOn_refl _⟩
  | some q => exact ⟨(s.post .plan).link, rfl, post_carriesOn _ s⟩

/-- NEXT is emptied under a plan in CURRENT. -/
theorem emptied_current {x : Plans} {p : Plan} (current : x.current = some p) :
    emptied x = { x with
      current := some { p with nextDiscard := if x.next.isSome then some .cancel else p.nextDiscard }, next := none } := by
  rcases x with ⟨table, held, next, last, vehicle⟩
  obtain rfl : held = some p := current
  cases next <;> rfl

/-- A cancel of CURRENT is for a RUNNING plan only. -/
theorem cancelCurrent_kept {s : State} (h : ∀ p, s.plans.current = some p → p.state ≠ .running) : s.cancelCurrent = s := by
  unfold State.cancelCurrent
  split
  · rfl
  next p current => rw [if_neg (h p current)]

theorem cancelCurrent_running {s : State} {p : Plan} (current : s.plans.current = some p) (running : p.state = .running) :
    ∃ m, s.cancelCurrent = { s with
      plans.current := some (aborted .cancel p), link := m, agenda := .release .plan .owner :: .planCheck :: s.agenda } := by
  refine ⟨(s.post .plan).link, ?_⟩
  simp [State.cancelCurrent, current, running, aborted, State.call, State.post, State.setCurrent]

/-- A cancel of a plan with moves in flight: it waits for them, ENDING, with its claims released. -/
theorem cancelCurrent_flying {s : State} {p : Plan} (c : Command) (r : Reply) (agenda : s.agenda = []) (power : s.power.state = .awake)
    (current : s.plans.current = some p) (running : p.state = .running) (flying : p.inFlight ≠ []) (unqueued : s.claims.queue = [])
    (unheld : ∀ a : Fin 8, s.claims.held[a] = ⟨false, false, false⟩) :
    ∃ l, (replied c (s.cancelCurrent, r)).finish = { s with
      axes := releasedAxes .plan .owner s, claims.owners := releasedOwners .plan s, plans.current := some (aborted .cancel p)
      link := l } := by
  obtain ⟨m, cancelled⟩ := cancelCurrent_running current running
  obtain ⟨k, few, l, released⟩ := reaches_release (s := replied c (s.cancelCurrent, r)) (o := .plan) (c := .owner)
    (ws := .planCheck :: s.agenda) (by rw [cancelled]; rfl) (by rw [cancelled]; exact unqueued) (by rw [cancelled]; exact unheld)
  rw [cancelled] at released ⊢
  have waits := planCheck_waits (s := { s with
      axes := releasedAxes .plan .owner s, claims.owners := releasedOwners .plan s, plans.current := some (aborted .cancel p)
      link := l }) rfl rfl flying
  obtain ⟨end_eq, _⟩ := (released.trans (reaches_planCheck waits)).finish agenda power
    (by simp only [Config.agendaFuel]; omega)
  exact ⟨_, end_eq⟩

/-- A cancel of a plan that holds nothing, with NEXT empty: it leaves at once. -/
theorem cancelCurrent_leaves {s : State} {p : Plan} (c : Command) (r : Reply) (agenda : s.agenda = []) (power : s.power.state = .awake)
    (current : s.plans.current = some p) (running : p.state = .running) (rest : p.inFlight = []) (unqueued : s.claims.queue = [])
    (free : ∀ a : Fin 8, s.owner a ≠ .plan ∧ s.movingFor a .plan = false) (noNext : s.plans.next = none) :
    ∃ l, (replied c (s.cancelCurrent, r)).finish
      = { s with plans := leftBy (aborted .cancel p) (.aborted .cancel) s.plans, link := l } := by
  obtain ⟨m, cancelled⟩ := cancelCurrent_running current running
  obtain ⟨l, left⟩ := reaches_left (s := replied c ({ s with
      plans.current := some (aborted .cancel p), link := m, agenda := .release .plan .owner :: .planCheck :: s.agenda }, r))
    (p := aborted .cancel p) (o := .aborted .cancel) rfl rfl rfl rfl rest unqueued free noNext
  obtain ⟨end_eq, _⟩ := left.finish agenda power (by decide)
  exact ⟨_, by rw [cancelled]; exact end_eq⟩

/-- The same with a plan in NEXT: it is promoted, and begins at its pause (R65). -/
theorem cancelCurrent_promotes {s : State} {p q : Plan} {i : Fin 32} {length : Nat} {after : Option (Fin 32)} (c : Command) (r : Reply)
    (agenda : s.agenda = []) (power : s.power.state = .awake) (current : s.plans.current = some p) (running : p.state = .running)
    (rest : p.inFlight = []) (unqueued : s.claims.queue = []) (free : ∀ a : Fin 8, s.owner a ≠ .plan ∧ s.movingFor a .plan = false)
    (next : s.plans.next = some q) (chain : q.kind = .chain i) (fresh : q.step = none)
    (table : s.plans.table[i] = some (.pause length after)) :
    ∃ l, (replied c (s.cancelCurrent, r)).finish = { s with
      plans := { promoted (aborted .cancel p) (.aborted .cancel) q s.plans with current := some (startedAtPause i length q) }
      link := l } := by
  obtain ⟨m, cancelled⟩ := cancelCurrent_running current running
  obtain ⟨l, begun⟩ := reaches_promoted (s := replied c ({ s with
      plans.current := some (aborted .cancel p), link := m, agenda := .release .plan .owner :: .planCheck :: s.agenda }, r))
    (p := aborted .cancel p) (o := .aborted .cancel) rfl rfl rfl rfl rest unqueued free next chain fresh table
  obtain ⟨end_eq, _⟩ := begun.finish agenda power (by decide)
  exact ⟨_, by rw [cancelled]; exact end_eq⟩

/-! ### The command -/

theorem exec_planCancel (s : State) (tag : Byte) (payload : List Byte) : exec (.planCancel tag payload) s
    = command 0x22 tag payload (asked (readCancel payload) fun x t => (t.planCancel x, (.done, .none))) s := rfl

/-- The target that a byte in range names (R78). -/
def targetOf (b : Byte) : CancelTarget := if b = 0 then .current else if b = 1 then .next else .all

theorem readCancel_of {b : Byte} (h : b.toNat ≤ 2) : readCancel [b] = some (targetOf b) := by
  have range : b = 0 ∨ b = 1 ∨ b = 2 := by bv_omega
  rcases range with rfl | rfl | rfl <;> rfl

/-- The record in which CURRENT is cancelled: for ALL NEXT is emptied first (R78). -/
def cutBy (b : Byte) (x : Plans) : Plans := if b = 2 then emptied x else x

theorem cutBy_current (b : Byte) {x : Plans} {p : Plan} (current : x.current = some p) :
    cutBy b x = { x with
      current := some { p with nextDiscard := if b = 2 ∧ x.next.isSome then some .cancel else p.nextDiscard }
      next := if b = 2 then none else x.next } := by
  rcases x with ⟨table, held, next, last, vehicle⟩
  obtain rfl : held = some p := current
  unfold cutBy
  by_cases all : b = 2
  · simp only [all, true_and]
    exact emptied_current rfl
  · simp only [all, false_and, if_false]

theorem cutBy_none (b : Byte) {x : Plans} (next : x.next = none) : cutBy b x = x := by
  simp [cutBy, emptied, next]

/-- The state in which CURRENT is cancelled, its link apart. -/
def cutAt (b : Byte) (m : Link) (s : State) : State := { s with plans := cutBy b s.plans, link := m }

/-- A cancel of CURRENT or ALL is a cancel of CURRENT in the record cut. -/
theorem planCancel_cut {b : Byte} (range : b.toNat ≤ 2) (notNext : b ≠ 1) (s : State) (l : Link) :
    ∃ m, ({ s with link := l } : State).planCancel (targetOf b) = (cutAt b m s).cancelCurrent ∧ l.carriesOn m := by
  have ends : b = 0 ∨ b = 2 := by bv_omega
  rcases ends with rfl | rfl
  · exact ⟨l, rfl, carriesOn_refl _⟩
  · obtain ⟨m, cut, carried⟩ := emptyNext_eq { s with link := l }
    exact ⟨m, congrArg State.cancelCurrent cut, carried⟩

/-- A RUNNING plan with moves in flight is ENDING with its moves braked, and its axes are given up (R78). -/
theorem cancelled_flying {s t : State} (axes : t.axes = releasedAxes .plan .owner s)
    (owners : t.claims.owners = releasedOwners .plan s) :
    (∀ (a : Fin 8) (m : Move), (s.axis a).activity = .running → s.movingFor a .plan = true → (s.axis a).move = some m →
        t.axis a = Spec.braked .stopped { m with stopCause := some .owner } (s.axis a))
      ∧ (∀ a : Fin 8, s.movingFor a .plan = false → t.axis a = s.axis a)
      ∧ (∀ a : Fin 8, t.owner a = if s.owner a = .plan then .none else s.owner a) := by
  have axis (a : Fin 8) : t.axis a = if s.movingFor a .plan then (s.axis a).stop .owner else s.axis a := by
    simp [State.axis, axes, releasedAxes]
  refine ⟨fun a m running moving move => ?_, fun a still => ?_, fun a => ?_⟩
  · simp [axis, moving, Axis.stop, running, Axis.brake, move, Spec.braked, Config.settleMs]
  · simp [axis, still]
  · simp [State.owner, owners, releasedOwners]

/-- The end of a PLAN_CANCEL that has been heard, of the target that a byte names. -/
def cancelEnd (c : Command) (l : Link) (b : Byte) (s : State) : State :=
  (replied c (({ s with link := l } : State).planCancel (targetOf b), .done, .none)).finish

section
variable {s : State} {c : Command} {l : Link} {b : Byte}

theorem cancelEnd_next (heard : Heard c s.link l) (agenda : s.agenda = []) (power : s.power.state = .awake) :
    ∃ n, cancelEnd c l 1 s = { s with plans := emptied s.plans, link := n } := by
  obtain ⟨m, cut, carried⟩ := emptyNext_eq { s with link := l }
  obtain ⟨n, end_eq, _⟩ := replied_quiet (t := { s with plans := emptied s.plans }) heard carried agenda power
  refine ⟨n, ?_⟩
  rw [cancelEnd, show targetOf 1 = .next from rfl, State.planCancel, cut]
  exact end_eq

/-- With no RUNNING plan a cancel of CURRENT or ALL is no more than its cut. -/
theorem cancelEnd_kept (heard : Heard c s.link l) (agenda : s.agenda = []) (power : s.power.state = .awake) (range : b.toNat ≤ 2)
    (notNext : b ≠ 1) (notRunning : ∀ p, (cutBy b s.plans).current = some p → p.state ≠ .running) :
    ∃ n, cancelEnd c l b s = { s with plans := cutBy b s.plans, link := n } := by
  obtain ⟨m, cut, carried⟩ := planCancel_cut range notNext s l
  obtain ⟨n, end_eq, _⟩ := replied_quiet (t := { s with plans := cutBy b s.plans }) heard carried agenda power
  refine ⟨n, ?_⟩
  rw [cancelEnd, cut, cancelCurrent_kept (s := cutAt b m s) notRunning]
  exact end_eq

theorem cancelEnd_flying {p : Plan} (agenda : s.agenda = []) (power : s.power.state = .awake) (range : b.toNat ≤ 2) (notNext : b ≠ 1)
    (current : (cutBy b s.plans).current = some p) (running : p.state = .running) (flying : p.inFlight ≠ [])
    (unqueued : s.claims.queue = []) (unheld : ∀ a : Fin 8, s.claims.held[a] = ⟨false, false, false⟩) :
    ∃ n, cancelEnd c l b s = { s with
      axes := releasedAxes .plan .owner s, claims.owners := releasedOwners .plan s
      plans := { cutBy b s.plans with current := some (aborted .cancel p) }, link := n } := by
  obtain ⟨m, cut, _⟩ := planCancel_cut range notNext s l
  rw [cancelEnd, cut]
  exact cancelCurrent_flying (s := cutAt b m s) c _ agenda power current running flying unqueued unheld

theorem cancelEnd_leaves {p : Plan} (agenda : s.agenda = []) (power : s.power.state = .awake) (range : b.toNat ≤ 2) (notNext : b ≠ 1)
    (current : (cutBy b s.plans).current = some p) (running : p.state = .running) (rest : p.inFlight = [])
    (unqueued : s.claims.queue = []) (free : ∀ a : Fin 8, s.owner a ≠ .plan ∧ s.movingFor a .plan = false)
    (noNext : (cutBy b s.plans).next = none) :
    ∃ n, cancelEnd c l b s = { s with plans := leftBy (aborted .cancel p) (.aborted .cancel) (cutBy b s.plans), link := n } := by
  obtain ⟨m, cut, _⟩ := planCancel_cut range notNext s l
  rw [cancelEnd, cut]
  exact cancelCurrent_leaves (s := cutAt b m s) c _ agenda power current running rest unqueued free noNext

end

/-- Settles O25, by the target, and for CURRENT and ALL by what CURRENT holds. -/
theorem planCancelEmptiesItsTarget : Obligations.PlanCancelEmptiesItsTarget := by
  intro s tag b h range
  obtain ⟨⟨agenda, power, _⟩, _⟩ := id h
  obtain ⟨l, heard, taken⟩ := command_taken h 0x22 tag [b] (asked (readCancel [b]) fun x t => (t.planCancel x, (.done, .none)))
  simp only [readCancel_of range, asked] at taken
  refine ⟨cancelEnd ⟨0x22, tag, [b]⟩ l b s, by rw [exec_planCancel, readCancel_of range]; exact taken, finish_slot _, ?_, ?_, ?_, ?_, ?_⟩
  · rintro rfl
    obtain ⟨n, end_eq⟩ := cancelEnd_next heard agenda power
    rw [end_eq]
    rfl
  · intro notNext noCurrent noNext
    obtain ⟨n, end_eq⟩ := cancelEnd_kept heard agenda power range notNext (by simp [cutBy_none b noNext, noCurrent])
    rw [end_eq, cutBy_none b noNext]
  · intro p current ending
    have kept (notNext : b ≠ 1) := cancelEnd_kept heard agenda power range notNext (by simp [cutBy_current b current, ending])
    constructor
    · rintro rfl
      obtain ⟨n, end_eq⟩ := kept (by decide)
      rw [end_eq]
      rfl
    · rintro rfl
      obtain ⟨n, end_eq⟩ := kept (by decide)
      rw [end_eq, cutBy_current 2 current]
      simp
  · intro p current running unqueued _ unheld flying notNext
    obtain ⟨n, end_eq⟩ := cancelEnd_flying (c := ⟨0x22, tag, [b]⟩) (l := l) agenda power range notNext
      (congrArg Plans.current (cutBy_current b current)) running flying unqueued unheld
    rw [end_eq]
    refine ⟨?_, cancelled_flying rfl rfl⟩
    simp [cutBy_current b current, Spec.cancelled, aborted]
  · intro p current running rest unqueued _ free
    constructor
    · intro leaves
      have notNext : b ≠ 1 := by rintro rfl; simp at leaves
      have noNext : (cutBy b s.plans).next = none := by
        rw [cutBy_current b current]
        rcases leaves with rfl | ⟨rfl, none⟩
        · rfl
        · exact none
      obtain ⟨n, end_eq⟩ := cancelEnd_leaves (c := ⟨0x22, tag, [b]⟩) (l := l) agenda power range notNext
        (congrArg Plans.current (cutBy_current b current)) running rest unqueued free noNext
      rw [end_eq]
      refine ⟨rfl, noNext, ?_⟩
      rcases leaves with rfl | ⟨rfl, none⟩
      · simp [leftBy, aborted, Plan.toLast]
      · simp [leftBy, aborted, Plan.toLast, none]
    · rintro q i length after rfl next chain fresh table
      obtain ⟨n, end_eq⟩ := cancelCurrent_promotes (s := { s with link := l }) ⟨0x22, tag, [0]⟩ (.done, .none) agenda power current
        running rest unqueued free next chain fresh table
      rw [show cancelEnd ⟨0x22, tag, [0]⟩ l 0 s = _ from end_eq]
      exact ⟨rfl, rfl, rfl⟩

end Sys2Proof.MovePlans
end

