-- ==== Sys2Proof/Proofs/MovePlans/Claim.lean ====
section
/-! The claims of a MOVE step on axes that are free (R66 to R68): from the beginning of the step to the queue. -/

namespace Sys2Proof.MovePlans

open Sys2Proof.Machine

/-! ### Axes that a plan's claim finds free -/

theorem distance_eq_apart (p q : Nat) : distance p q = Spec.apart p q := by
  unfold distance Spec.apart
  split <;> omega

theorem intoLimits_ready {s : State} {a : Fin 8} {target : Nat} (h : Spec.readyFor s a target) :
    (s.axis a).intoLimits target = target := by
  obtain ⟨_, _, _, _, _, ⟨travel, known, above, below⟩, _⟩ := h
  simp only [Axis.intoLimits, Axis.limits, known, Option.map_some, clamp]
  omega

/-- A free axis is to be claimed, without a partial reason (R67). -/
theorem resolve_ready {s : State} {a : Fin 8} {target : Nat} (h : Spec.readyFor s a target) :
    s.resolve ⟨a, .absolute target⟩ = some (⟨a, some target, .toClaim⟩, .ofClamped false) := by
  have within := intoLimits_ready h
  obtain ⟨idle, unlatched, _, _, referenced, _, far⟩ := h
  simp [State.resolve, idle, unlatched, referenced, State.namedTarget, within, distance_eq_apart, far]

/-- Its claim finds it as it was resolved (R68). -/
theorem refresh_ready {s : State} {a : Fin 8} {target : Nat} (h : Spec.readyFor s a target) (st : Standing) :
    s.refresh ⟨a, some target, st⟩ = (⟨a, some target, st⟩, .ofClamped false) := by
  have within := intoLimits_ready h
  obtain ⟨_, _, _, _, referenced, _⟩ := h
  simp [State.refresh, referenced, within]

/-- Its claim is admitted (R29). -/
theorem decideClaim_ready {s : State} {a : Fin 8} {target : Nat} (h : Spec.readyFor s a target) (power : s.power.state = .awake)
    (unbraced : s.brace.state = .idle) (goal : Goal) (g : Option Nat) :
    s.decideClaim ⟨a, .plan, .targeted, goal, g⟩ = .admitted := by
  obtain ⟨idle, _, unowned, _, referenced, _⟩ := h
  simp [State.decideClaim, State.decideByOwner, State.movingFor, Axis.moving, idle, unowned, referenced, power, unbraced]

/-! ### The targets of a step, as entries and as claims -/

/-- The axis entries of a descriptor that names positions (R61). -/
def targetsOf (ps : List (Fin 8 × Nat)) : List AxisTarget := ps.map fun x => ⟨x.1, .absolute x.2⟩

/-- The entries of the step, all of one standing (R66). -/
def entriesOf (st : Standing) (ps : List (Fin 8 × Nat)) : List StepEntry := ps.map fun x => ⟨x.1, some x.2, st⟩

theorem entriesOf_standing {st : Standing} {ps : List (Fin 8 × Nat)} {e : StepEntry} (h : e ∈ entriesOf st ps) : e.standing = st := by
  obtain ⟨x, _, rfl⟩ := List.mem_map.mp h
  rfl

/-- The queue entries that the step's claims ask for (R34, R68). -/
def claimsOf (g : Option Nat) (ps : List (Fin 8 × Nat)) : List Entry := ps.map fun x => ⟨x.1, .plan, .targeted, .target x.2, g⟩

/-- The owners once the axes are owned by PLAN (R29). -/
def ownedBy (ps : List (Fin 8 × Nat)) (v : Vector Owner 8) : Vector Owner 8 := ps.foldl (fun v x => v.set x.1 .plan) v

/-- A RUNNING plan at a descriptor, with the entries and the moves in flight given. -/
structure AtMove (i : Fin 32) (es : List StepEntry) (flight : List (Fin 8)) (q : Plan) : Prop where
  running : q.state = .running
  notAtEnd : q.atEnd = false
  step : q.step = some (.descriptor i)
  entries : q.entries = es
  inFlight : q.inFlight = flight

theorem AtMove.addPartials {i : Fin 32} {es : List StepEntry} {flight : List (Fin 8)} {q : Plan} (h : AtMove i es flight q)
    (found : Partials) : AtMove i es flight (q.addPartials found) :=
  ⟨h.running, h.notAtEnd, h.step, h.entries, h.inFlight⟩

theorem AtMove.setEntries {i : Fin 32} {es fs : List StepEntry} {flight : List (Fin 8)} {q : Plan} (h : AtMove i es flight q) :
    AtMove i fs flight { q with entries := fs } :=
  ⟨h.running, h.notAtEnd, h.step, rfl, h.inFlight⟩

/-- One entry after others takes the standing that they have. -/
theorem map_standing (st st' : Standing) (done rest : List (Fin 8 × Nat)) (x : Fin 8 × Nat)
    (different : ((done ++ x :: rest).map Prod.fst).Nodup) :
    (entriesOf st' done ++ entriesOf st (x :: rest)).map (fun e => if e.axis = x.1 then { e with standing := st' } else e)
      = entriesOf st' (done ++ [x]) ++ entriesOf st rest := by
  simp only [List.map_append, List.map_cons, List.nodup_append, List.nodup_cons, List.mem_map, List.mem_cons] at different
  obtain ⟨_, ⟨fresh, _⟩, apart⟩ := different
  have before : ∀ y ∈ done, y.1 ≠ x.1 := fun y hy => apart y.1 ⟨y, hy, rfl⟩ x.1 (Or.inl rfl)
  have behind : ∀ y ∈ rest, y.1 ≠ x.1 := fun y hy e => fresh ⟨y, hy, e⟩
  have keep (z : Standing) (l : List (Fin 8 × Nat)) (h : ∀ y ∈ l, y.1 ≠ x.1) :
      (entriesOf z l).map (fun e => if e.axis = x.1 then { e with standing := st' } else e) = entriesOf z l := by
    simp only [entriesOf, List.map_map]
    exact List.map_congr_left fun y hy => by simp [h y hy]
  rw [List.map_append, keep _ _ before, show entriesOf st (x :: rest) = ⟨x.1, some x.2, st⟩ :: entriesOf st rest from rfl, List.map_cons,
    keep _ _ behind]
  simp [entriesOf]

/-! ### The beginning of a MOVE step -/

theorem resolveAll_ready {s : State} {ps : List (Fin 8 × Nat)} (h : ∀ x ∈ ps, Spec.readyFor s x.1 x.2) :
    ∃ found, s.resolveAll (targetsOf ps) = (entriesOf .toClaim ps, found, false) := by
  induction ps with
  | nil => exact ⟨.empty, rfl⟩
  | cons x ps ih =>
    obtain ⟨found, rest⟩ := ih fun y hy => h y (List.mem_cons_of_mem _ hy)
    have first := resolve_ready (h x List.mem_cons_self)
    refine ⟨(Partials.ofClamped false).join found, ?_⟩
    simp only [targetsOf, List.map_cons, State.resolveAll, first] at rest ⊢
    rw [rest]
    rfl

/-- What a MOVE step asks for once its entries are resolved (R68). -/
def firstClaims (group : Bool) (ps : List (Fin 8 × Nat)) : List Work :=
  if group then [.planClaimGroup] else (ps.map Prod.fst).map .planClaim

/-- A chain that begins at a MOVE of free axes is to claim them all. -/
theorem planBegin_move {s : State} {p : Plan} {i : Fin 32} {ps : List (Fin 8 × Nat)} {group wait : Bool} {next : Option (Fin 32)}
    (current : s.plans.current = some p) (running : p.state = .running) (fresh : p.step = none) (chain : p.kind = .chain i)
    (notAtEnd : p.atEnd = false) (rest : p.inFlight = []) (some_axis : ps ≠ [])
    (table : s.plans.table[i] = some (.move (targetsOf ps) group wait next)) (ready : ∀ x ∈ ps, Spec.readyFor s x.1 x.2) :
    ∃ q, AtMove i (entriesOf .toClaim ps) [] q
      ∧ s.planBegin = (s.setCurrent (some q)).call (firstClaims group ps ++ [.planCheck]) := by
  have resolved := resolveAll_ready (s := s.setCurrent (some (entering (.descriptor i) p))) ready
  obtain ⟨found, resolved⟩ := resolved
  have entered : AtMove i [] [] (entering (.descriptor i) p) := ⟨running, notAtEnd, rfl, rfl, rest⟩
  refine ⟨{ (entering (.descriptor i) p).addPartials found with entries := entriesOf .toClaim ps },
    (entered.addPartials found).setEntries, ?_⟩
  have all : (entriesOf .toClaim ps).filter (·.standing == .toClaim) = entriesOf .toClaim ps :=
    List.filter_eq_self.mpr fun e he => by simp [entriesOf_standing he]
  have axes : (entriesOf .toClaim ps).map (·.axis) = ps.map Prod.fst := by
    simp [entriesOf]
  have begun : s.beginStep (.descriptor i) = (s.setCurrent (some (entering (.descriptor i) p))).beginMove (targetsOf ps) group := by
    simp only [State.beginStep, current, table]
    rfl
  rw [planBegin_chain current running fresh chain, begun, State.beginMove, resolved]
  simp only [all, axes, firstClaims]
  cases group
  · simp [State.onCurrent, State.setCurrent]
  · simp [State.onCurrent, State.setCurrent, some_axis]

/-! ### Entries that are admitted -/

theorem setOwner_eq (a : Fin 8) (o : Owner) (s : State) :
    ∃ m, s.setOwner a o = { s with claims.owners := s.claims.owners.set a o, link := m } := by
  simp only [State.setOwner, postIf_eq]
  exact ⟨_, rfl⟩

/-- A PLAN claim on an axis that nobody owns or waits for, behind other PLAN entries. -/
theorem admitEntry_last {s : State} {e : Entry} (plan : e.owner = .plan) (unowned : s.owner e.axis = .none)
    (apart : ∀ x ∈ s.claims.queue, x.axis ≠ e.axis) (plans : ∀ x ∈ s.claims.queue, x.owner = .plan) :
    ∃ m, s.admitEntry e = { s with
      claims := { s.claims with owners := s.claims.owners.set e.axis .plan, queue := s.claims.queue ++ [e] }, link := m } := by
  have unqueued : s.entryOf e.axis = none := by
    simpa [State.entryOf] using apart
  have kept : s.replaceEntry e = s := by simp [State.replaceEntry, unqueued]
  have front : s.claims.queue.takeWhile (fun x => decide (x.owner.rank ≤ e.owner.rank)) = s.claims.queue :=
    List.takeWhile_eq_self_iff.mpr fun x hx => by simp [plans x hx, plan]
  have back : s.claims.queue.dropWhile (fun x => decide (x.owner.rank ≤ e.owner.rank)) = [] :=
    List.dropWhile_eq_nil_iff.mpr fun x hx => by simp [plans x hx, plan]
  obtain ⟨m, owned⟩ := setOwner_eq e.axis .plan s
  refine ⟨m, ?_⟩
  simp only [State.admitEntry, kept, unowned, plan, placeEntry] at front back ⊢
  simp [owned, front, back]

/-- Such claims on different axes, one after another. -/
theorem foldl_admitEntry (g : Option Nat) (ps : List (Fin 8 × Nat)) (s : State) (different : (ps.map Prod.fst).Nodup)
    (unowned : ∀ x ∈ ps, s.owner x.1 = .none) (apart : ∀ y ∈ s.claims.queue, ∀ x ∈ ps, y.axis ≠ x.1)
    (plans : ∀ y ∈ s.claims.queue, y.owner = .plan) :
    ∃ m, (claimsOf g ps).foldl (fun t e => t.admitEntry e) s = { s with
      claims := { s.claims with owners := ownedBy ps s.claims.owners, queue := s.claims.queue ++ claimsOf g ps }, link := m } := by
  induction ps generalizing s with
  | nil => exact ⟨s.link, by simp [claimsOf, ownedBy]⟩
  | cons x ps ih =>
    obtain ⟨fresh, rest⟩ := List.nodup_cons.mp different
    have other : ∀ y ∈ ps, x.1.val ≠ y.1.val := fun y hy e =>
      fresh (List.mem_map.mpr ⟨y, hy, (Fin.ext e).symm⟩)
    obtain ⟨m, admitted⟩ := admitEntry_last (s := s) (e := ⟨x.1, .plan, .targeted, .target x.2, g⟩) rfl (unowned x List.mem_cons_self)
      (fun y hy => apart y hy x List.mem_cons_self) plans
    have later := ih { s with
      claims := { s.claims with
        owners := s.claims.owners.set x.1 .plan, queue := s.claims.queue ++ [⟨x.1, .plan, .targeted, .target x.2, g⟩] }, link := m }
      rest (fun y hy => by
        have kept := unowned y (List.mem_cons_of_mem _ hy)
        simpa [State.owner, other y hy] using kept)
      (fun y hy z hz => by
        rcases List.mem_append.mp hy with queued | new
        · exact apart y queued z (List.mem_cons_of_mem _ hz)
        · obtain rfl := List.mem_singleton.mp new
          exact fun e => other z hz (congrArg Fin.val e))
      (fun y hy => by
        rcases List.mem_append.mp hy with queued | new
        · exact plans y queued
        · obtain rfl := List.mem_singleton.mp new
          rfl)
    obtain ⟨n, later⟩ := later
    refine ⟨n, ?_⟩
    rw [show claimsOf g (x :: ps) = ⟨x.1, .plan, .targeted, .target x.2, g⟩ :: claimsOf g ps from rfl, List.foldl_cons, admitted, later]
    simp [ownedBy]

/-! ### The claims of the step -/

/-- The state in which the step's claims have been queued and its plan has been told, before the arbiter runs. -/
def claimed (g : Option Nat) (ps : List (Fin 8 × Nat)) (q : Plan) (m : Link) (s : State) : State :=
  { s with
    claims := { s.claims with owners := ownedBy ps s.claims.owners, queue := claimsOf g ps }
    plans.current := some q, link := m, agenda := .arbiter :: s.agenda }

/-- An entry found as it was stays as it was. -/
theorem AtMove.putEntry {i : Fin 32} {st : Standing} {ps : List (Fin 8 × Nat)} {flight : List (Fin 8)} {x : Fin 8 × Nat} {q : Plan}
    (h : AtMove i (entriesOf st ps) flight q) (different : (ps.map Prod.fst).Nodup) (hx : x ∈ ps) :
    AtMove i (entriesOf st ps) flight (q.putEntry ⟨x.1, some x.2, st⟩) := by
  have same : (entriesOf st ps).map (fun e => if e.axis = x.1 then (⟨x.1, some x.2, st⟩ : StepEntry) else e) = entriesOf st ps := by
    rw [entriesOf, List.map_map]
    refine List.map_congr_left fun y hy => ?_
    by_cases e : y.1 = x.1
    · obtain rfl := List.inj_on_of_nodup_map different hy hx e
      simp
    · simp [e]
  exact ⟨h.running, h.notAtEnd, h.step, by rw [Plan.putEntry, h.entries, same], h.inFlight⟩

/-- An admitted claim's entry is queued and its move in flight (R68). -/
theorem AtMove.answered {i : Fin 32} {done rest : List (Fin 8 × Nat)} {x : Fin 8 × Nat} {q : Plan}
    (h : AtMove i (entriesOf .queued done ++ entriesOf .toClaim (x :: rest)) (done.map Prod.fst) q)
    (different : ((done ++ x :: rest).map Prod.fst).Nodup) :
    AtMove i (entriesOf .queued (done ++ [x]) ++ entriesOf .toClaim rest) ((done ++ [x]).map Prod.fst) (q.answered x.1 .admitted) := by
  have stood := map_standing .toClaim .queued done rest x different
  have fresh : x.1 ∉ done.map Prod.fst := fun again => by
    rw [List.map_append, List.nodup_append] at different
    exact different.2.2 x.1 again x.1 (by simp) rfl
  have joined : q.answered x.1 .admitted = { q with
      entries := entriesOf .queued (done ++ [x]) ++ entriesOf .toClaim rest, inFlight := (done ++ [x]).map Prod.fst } := by
    simp only [Plan.answered, Plan.joinFlight, ClaimAnswer.standing, if_true, h.entries, h.inFlight, stood, List.map_append,
      List.map_cons, List.map_nil]
    rw [if_neg (by simpa using fresh)]
  rw [joined]
  exact ⟨h.running, h.notAtEnd, h.step, rfl, rfl⟩

theorem AtMove.answeredAll {i : Fin 32} {ps : List (Fin 8 × Nat)} {q : Plan} (h : AtMove i (entriesOf .toClaim ps) [] q)
    (different : (ps.map Prod.fst).Nodup) :
    AtMove i (entriesOf .queued ps) (ps.map Prod.fst) ((entriesOf .toClaim ps).foldl (fun r e => r.answered e.axis .admitted) q) := by
  have go (done rest : List (Fin 8 × Nat)) (q : Plan) (different : ((done ++ rest).map Prod.fst).Nodup)
      (h : AtMove i (entriesOf .queued done ++ entriesOf .toClaim rest) (done.map Prod.fst) q) :
      AtMove i (entriesOf .queued (done ++ rest)) ((done ++ rest).map Prod.fst)
        ((entriesOf .toClaim rest).foldl (fun r e => r.answered e.axis .admitted) q) := by
    induction rest generalizing done q with
    | nil => simpa [entriesOf] using h
    | cons x rest ih =>
      have next := ih (done ++ [x]) (q.answered x.1 .admitted) (by simpa using different) (h.answered different)
      simpa [entriesOf] using next
  simpa using go [] ps q (by simpa using different) (by simpa [entriesOf] using h)

/-- The claim of a step's one entry (R68). -/
theorem planClaim_ready {s : State} {q : Plan} {i : Fin 32} {x : Fin 8 × Nat} (current : s.plans.current = some q)
    (at_move : AtMove i (entriesOf .toClaim [x]) [] q) (ready : Spec.readyFor s x.1 x.2) (power : s.power.state = .awake)
    (unbraced : s.brace.state = .idle) (unqueued : s.claims.queue = []) :
    ∃ r m, AtMove i (entriesOf .queued [x]) [x.1] r ∧ s.planClaim x.1 = claimed none [x] r m s := by
  have refreshed : AtMove i (entriesOf .toClaim [x]) [] ((q.addPartials (.ofClamped false)).putEntry ⟨x.1, some x.2, .toClaim⟩) :=
    (at_move.addPartials _).putEntry (by simp) List.mem_cons_self
  generalize entered : (q.addPartials (.ofClamped false)).putEntry ⟨x.1, some x.2, .toClaim⟩ = r at refreshed
  obtain ⟨m, admitted⟩ := foldl_admitEntry none [x] ((s.setCurrent (some r)).call [.arbiter]) (by simp)
    (fun y hy => by obtain rfl := List.mem_singleton.mp hy; exact ready.2.2.1) (by simp [unqueued]) (by simp [unqueued])
  refine ⟨r.answered x.1 .admitted, m, by simpa [entriesOf] using refreshed.answeredAll (by simp), ?_⟩
  have found : q.entries.find? (fun e => e.axis == x.1 && e.unclaimed) = some ⟨x.1, some x.2, .toClaim⟩ := by
    rw [at_move.entries]
    simp [entriesOf, StepEntry.unclaimed]
  have sound : (s.axis x.1).activity ≠ .faulted := by rw [ready.1]; decide
  have put : s.onCurrent (fun q => (q.addPartials (.ofClamped false)).putEntry ⟨x.1, some x.2, .toClaim⟩) = s.setCurrent (some r) := by
    simp [State.onCurrent, State.setCurrent, current, entered]
  have answer : (s.setCurrent (some r)).claim ⟨x.1, .plan, .targeted, .target x.2, none⟩
      = (((s.setCurrent (some r)).call [.arbiter]).admitEntry ⟨x.1, .plan, .targeted, .target x.2, none⟩, .admitted) := by
    rw [State.claim, decideClaim_ready (s := s.setCurrent (some r)) ready power unbraced]
  have queued : ((s.setCurrent (some r)).call [.arbiter]).admitEntry ⟨x.1, .plan, .targeted, .target x.2, none⟩
      = claimed none [x] r m s := by
    refine Eq.trans admitted ?_
    simp [unqueued, claimed, State.call, State.setCurrent]
  simp only [State.planClaim, current, found, at_move.running, sound, refresh_ready ready, put, StepEntry.claimOf, Option.getD_some, answer,
    queued]
  rfl

/-- A group of claims that would each be admitted is admitted (R34). -/
theorem groupAnswer_admitted {s : State} {es : List Entry} (h : ∀ e ∈ es, s.decideClaim e = .admitted) :
    groupAnswer (es.map s.decideClaim) = .admitted := by
  have all : es.map s.decideClaim = es.map fun _ => .admitted := List.map_congr_left h
  rw [all]
  simp [groupAnswer]

/-- The claims of a grouped step (R34, R68). -/
theorem planClaimGroup_ready {s : State} {q : Plan} {i : Fin 32} {ps : List (Fin 8 × Nat)} (current : s.plans.current = some q)
    (at_move : AtMove i (entriesOf .toClaim ps) [] q) (some_axis : ps ≠ []) (different : (ps.map Prod.fst).Nodup)
    (ready : ∀ x ∈ ps, Spec.readyFor s x.1 x.2) (power : s.power.state = .awake) (unbraced : s.brace.state = .idle)
    (unqueued : s.claims.queue = []) :
    ∃ g r m, AtMove i (entriesOf .queued ps) (ps.map Prod.fst) r ∧ s.planClaimGroup = claimed (some g) ps r m s := by
  have refreshed : (entriesOf .toClaim ps).map s.refresh = (entriesOf .toClaim ps).map fun e => (e, .ofClamped false) := by
    simp only [entriesOf, List.map_map]
    exact List.map_congr_left fun x hx => refresh_ready (ready x hx) .toClaim
  have put (l : List (Fin 8 × Nat)) (hl : ∀ x ∈ l, x ∈ ps) (q : Plan) (h : AtMove i (entriesOf .toClaim ps) [] q) :
      AtMove i (entriesOf .toClaim ps) [] (((entriesOf .toClaim l).map fun e => (e, Partials.ofClamped false)).foldl
        (fun r f => (r.addPartials f.2).putEntry f.1) q) := by
    induction l generalizing q with
    | nil => exact h
    | cons x l ih =>
      exact ih (fun y hy => hl y (List.mem_cons_of_mem _ hy)) _ ((h.addPartials _).putEntry different (hl x List.mem_cons_self))
  have entered := put ps (fun _ h => h) q at_move
  generalize same : ((entriesOf .toClaim ps).map fun e => (e, Partials.ofClamped false)).foldl
    (fun r f => (r.addPartials f.2).putEntry f.1) q = r at entered
  obtain ⟨m, admitted⟩ := foldl_admitEntry (some q.steps) ps ((s.setCurrent (some r)).call [.arbiter]) different
    (fun y hy => (ready y hy).2.2.1) (by simp [unqueued]) (by simp [unqueued])
  refine ⟨q.steps, _, m, entered.answeredAll different, ?_⟩
  have placed : s.onCurrent (fun q => ((entriesOf .toClaim ps).map fun e => (e, Partials.ofClamped false)).foldl
      (fun r f => (r.addPartials f.2).putEntry f.1) q) = s.setCurrent (some r) := by
    simp only [State.onCurrent, State.setCurrent, current, Option.map_some, same]
  have answer : (s.setCurrent (some r)).claimGroup (claimsOf (some q.steps) ps) = ((claimsOf (some q.steps) ps).foldl
      (fun t e => t.admitEntry e) ((s.setCurrent (some r)).call [.arbiter]), .admitted) := by
    rw [State.claimGroup, groupAnswer_admitted fun e he => ?_]
    obtain ⟨x, hx, rfl⟩ := List.mem_map.mp he
    exact decideClaim_ready (s := s.setCurrent (some r)) (ready x hx) power unbraced _ _
  have queued : (claimsOf (some q.steps) ps).foldl (fun t e => t.admitEntry e) ((s.setCurrent (some r)).call [.arbiter])
      = claimed (some q.steps) ps r m s := by
    refine Eq.trans admitted ?_
    simp [unqueued, claimed, State.call, State.setCurrent]
  have nonempty : (entriesOf .toClaim ps).isEmpty = false := by simpa [entriesOf] using some_axis
  have sound : (entriesOf .toClaim ps).any (fun e => (s.axis e.axis).activity == .faulted) = false := by
    simp only [entriesOf, List.any_map, List.any_eq_false]
    exact fun x hx => by simp [(ready x hx).1]
  have unclaimed : q.entries.filter StepEntry.unclaimed = entriesOf .toClaim ps := by
    rw [at_move.entries]
    exact List.filter_eq_self.mpr fun e he => by simp [StepEntry.unclaimed, entriesOf_standing he]
  have members : (entriesOf .toClaim ps).filter (fun e => e.standing != .skipped) = entriesOf .toClaim ps :=
    List.filter_eq_self.mpr fun e he => by simp [entriesOf_standing he]
  have fresh : ((entriesOf .toClaim ps).map fun e => (e, Partials.ofClamped false)).map (·.1) = entriesOf .toClaim ps := by
    rw [List.map_map]
    exact List.map_id _
  have asked : (entriesOf .toClaim ps).map (fun e => e.claimOf (some q.steps)) = claimsOf (some q.steps) ps := by
    simp [entriesOf, claimsOf, StepEntry.claimOf]
  simp only [State.planClaimGroup, current, unclaimed, at_move.running, nonempty, sound, refreshed, placed, fresh, members, asked, answer,
    queued]
  rfl

end Sys2Proof.MovePlans
end

