-- ==== Sys2Proof/Proofs/MovePlans/Start.lean ====
section
/-! The start of a queued unit of a plan, alone or as a group: the arbiter's decision, and what the start leaves (R36, R37). -/

namespace Sys2Proof.MovePlans

open Sys2Proof.Machine

/-! ### Finding units -/

theorem recomputeFrom_frame (n : Nat) (s : State) : ∃ z m, s.recomputeFrom n = { s with zones := z, link := m } := by
  unfold State.recomputeFrom
  simp only [postIf_eq]
  exact ⟨_, _, rfl⟩

theorem pausePump_frame (s : State) : ∃ g c m, s.pausePump = { s with gov := g, cells := c, link := m } := by
  unfold State.pausePump
  split
  · simp only [State.setPump, postIf_eq]
    exact ⟨_, _, _, rfl⟩
  · exact ⟨s.gov, s.cells, s.link, rfl⟩

/-- Units are found from the free ones, the heaters and the pump; nothing else is touched (R51). -/
theorem findUnits_frame (n : Nat) (s : State) :
    ∃ g c z m, s.findUnits n = { s with gov := g, cells := c, zones := z, link := m } := by
  obtain ⟨z, m, heated⟩ : ∃ z m, (if n ≤ s.freeUnits then s else s.recomputeFrom (s.gov.limit - (s.motorUnits + n) - s.gov.pumpGrant))
      = { s with zones := z, link := m } := by
    split
    · exact ⟨s.zones, s.link, rfl⟩
    · exact recomputeFrom_frame _ _
  unfold State.findUnits
  rw [heated]
  split
  · obtain ⟨g, c, l, paused⟩ := pausePump_frame { s with zones := z, link := m }
    exact ⟨g, c, z, l, paused⟩
  · exact ⟨s.gov, s.cells, z, m, rfl⟩

/-! ### Taking slots -/

theorem slots_toList (v : Vector (Option Slot) 3) : v.toList = [v[0], v[1], v[2]] := by
  apply List.ext_getElem
  · simp
  · intro i hi _
    rcases i with _ | _ | _ | i
    · simp
    · simp
    · simp
    · simp only [Vector.length_toList] at hi
      omega

theorem freeSlots_one {s : State} (h : s.claims.slots[0] = none) : 1 ≤ s.freeSlots := by
  simp [State.freeSlots, slots_toList, h]

theorem freeSlots_two {s : State} (h : s.claims.slots[0] = none) (k : s.claims.slots[1] = none) : 2 ≤ s.freeSlots := by
  simp [State.freeSlots, slots_toList, h, k]

theorem freeSlots_few {s : State} (h : s.claims.slots[1].isSome) (k : s.claims.slots[2].isSome) : s.freeSlots < 2 := by
  have taken (o : Option Slot) (ho : o.isSome) : o.isNone = false := by
    cases o <;> simp_all
  simp only [State.freeSlots, slots_toList, List.filter_cons, taken _ h, taken _ k]
  split <;> simp

/-- The drive slot that a plan's move of an axis takes (R27). -/
def planSlotOf (s : State) (a : Fin 8) : Slot := ⟨a, .plan, .targeted, (s.axis a).cfg.ratedUnits⟩

/-- One entry takes the lowest slot and leaves the queue. -/
theorem takeStart_first {s : State} (g : Option Nat) (x : Fin 8 × Nat) (slot0 : s.claims.slots[0] = none)
    (queue : s.claims.queue = claimsOf g [x]) :
    (claimsOf g [x]).foldl (fun t e => t.takeStart e) s
      = { s with claims := { s.claims with slots := s.claims.slots.set 0 (some (planSlotOf s x.1)), queue := [] } } := by
  simp only [claimsOf, List.map_cons, List.map_nil] at queue ⊢
  simp [State.takeStart, State.takeSlot, slot0, State.dropEntry, queue, planSlotOf]

/-- Two entries take the two lowest slots and leave the queue. -/
theorem takeStart_two {s : State} (g : Option Nat) (x y : Fin 8 × Nat) (apart : x.1 ≠ y.1) (slot0 : s.claims.slots[0] = none)
    (slot1 : s.claims.slots[1] = none) (queue : s.claims.queue = claimsOf g [x, y]) :
    (claimsOf g [x, y]).foldl (fun t e => t.takeStart e) s = { s with
      claims := { s.claims with
        slots := (s.claims.slots.set 0 (some (planSlotOf s x.1))).set 1 (some (planSlotOf s y.1)), queue := [] } } := by
  simp only [claimsOf, List.map_cons, List.map_nil] at queue ⊢
  simp [State.takeStart, State.takeSlot, slot0, slot1, State.dropEntry, queue, planSlotOf, apart.symm, State.axis]

/-! ### Driving the axes -/

/-- The axes once each of the step's has been given its start. -/
def startedAxes (s : State) (ps : List (Fin 8 × Nat)) (v : Vector Axis 8) : Vector Axis 8 :=
  ps.foldl (fun v x => v.set x.1 (Spec.targeted x.2 (s.axis x.1))) v

/-- A start to a target beyond tolerance drives the axis toward it (R4, R5). -/
theorem startAxis_drives {s : State} {a : Fin 8} {target : Nat} (far : (s.axis a).cfg.tolerance < Spec.apart (s.axis a).position target) :
    ∃ m, s.startAxis a .targeted (.target target) = { s with axes := s.axes.set a (Spec.targeted target (s.axis a)), link := m } := by
  have onward : (s.axis a).completesAtStart .targeted (.target target) = false := by
    simp [Axis.completesAtStart, Axis.startTarget, distance_eq_apart, far]
  refine ⟨(s.post .axis).link, ?_⟩
  simp only [State.startAxis, onward]
  rfl

theorem foldl_startAxis (s : State) (g : Option Nat) (ps : List (Fin 8 × Nat)) (t : State) (different : (ps.map Prod.fst).Nodup)
    (same : ∀ x ∈ ps, t.axis x.1 = s.axis x.1) (far : ∀ x ∈ ps, (s.axis x.1).cfg.tolerance < Spec.apart (s.axis x.1).position x.2) :
    ∃ m, (claimsOf g ps).foldl (fun t e => t.startAxis e.axis e.kind e.goal) t
      = { t with axes := startedAxes s ps t.axes, link := m } := by
  induction ps generalizing t with
  | nil => exact ⟨t.link, rfl⟩
  | cons x ps ih =>
    obtain ⟨fresh, rest⟩ := List.nodup_cons.mp different
    have here := same x List.mem_cons_self
    obtain ⟨m, driven⟩ := startAxis_drives (s := t) (a := x.1) (target := x.2) (by rw [here]; exact far x List.mem_cons_self)
    rw [here] at driven
    obtain ⟨n, later⟩ := ih { t with axes := t.axes.set x.1 (Spec.targeted x.2 (s.axis x.1)), link := m } rest
      (fun y hy => by
        have other : x.1.val ≠ y.1.val := fun e => fresh (List.mem_map.mpr ⟨y, hy, (Fin.ext e).symm⟩)
        rw [← same y (List.mem_cons_of_mem _ hy)]
        simp [State.axis, other])
      (fun y hy => far y (List.mem_cons_of_mem _ hy))
    refine ⟨n, ?_⟩
    rw [show claimsOf g (x :: ps) = ⟨x.1, .plan, .targeted, .target x.2, g⟩ :: claimsOf g ps from rfl, List.foldl_cons, driven, later]
    rfl

theorem startedAxes_running (s : State) (ps : List (Fin 8 × Nat)) (v : Vector Axis 8) (a : Fin 8)
    (h : a ∈ ps.map Prod.fst ∨ v[a].activity = .running) : (startedAxes s ps v)[a].activity = .running := by
  induction ps generalizing v with
  | nil => simpa [startedAxes] using h
  | cons x ps ih =>
    refine ih _ ?_
    by_cases e : x.1 = a
    · subst e
      exact Or.inr (by simp [Spec.targeted, Spec.driving])
    · have other : x.1.val ≠ a.val := fun h => e (Fin.ext h)
      rcases h with named | already
      · rcases List.mem_cons.mp named with first | later
        · exact absurd first.symm e
        · exact Or.inl later
      · exact Or.inr (by simpa [other] using already)

/-! ### The arbiter -/

/-- A unit at the head of the queue whose axes are free is the one treated. -/
theorem startUnit_free {s : State} (g : Option Nat) {ps : List (Fin 8 × Nat)} (some_axis : ps ≠ []) (single : g = none → ps.length = 1)
    (ready : ∀ x ∈ ps, (s.axis x.1).activity = .idle ∧ s.slotOf x.1 = none) :
    s.startUnit none (claimsOf g ps) = some (claimsOf g ps) := by
  have free : s.unitFree (claimsOf g ps) = true := by
    simp only [State.unitFree, claimsOf, List.all_map, List.all_eq_true]
    exact fun x hx => by simp [ready x hx]
  obtain ⟨x, ps, rfl⟩ := List.exists_cons_of_ne_nil some_axis
  cases g with
  | none =>
    obtain rfl : ps = [] := by simpa using single rfl
    simp only [claimsOf, List.map_cons, List.map_nil] at free ⊢
    simp [State.startUnit, free]
  | some g =>
    have members : (claimsOf (some g) ps).takeWhile (fun e => e.group == some g) = claimsOf (some g) ps :=
      List.takeWhile_eq_self_iff.mpr fun e he => by
        obtain ⟨y, _, rfl⟩ := List.mem_map.mp he
        simp
    rw [show claimsOf (some g) (x :: ps) = ⟨x.1, .plan, .targeted, .target x.2, some g⟩ :: claimsOf (some g) ps from rfl] at free ⊢
    simp [State.startUnit, members, free]

theorem not_brace (g : Option Nat) {ps : List (Fin 8 × Nat)} (some_axis : ps ≠ []) :
    (claimsOf g ps).all (·.owner == .brace) = false := by
  obtain ⟨x, ps, rfl⟩ := List.exists_cons_of_ne_nil some_axis
  rfl

/-- A unit blocks for want of slots (R36). -/
theorem arbiter_blocks {s : State} (g : Option Nat) {ps : List (Fin 8 × Nat)} (some_axis : ps ≠ [])
    (single : g = none → ps.length = 1) (ready : ∀ x ∈ ps, (s.axis x.1).activity = .idle ∧ s.slotOf x.1 = none)
    (queue : s.claims.queue = claimsOf g ps) (few : s.freeSlots < ps.length) : s.arbiter = s := by
  have length : (claimsOf g ps).length = ps.length := List.length_map _
  simp [State.arbiter, queue, startUnit_free g some_axis single ready, length, few]

/-- A unit starts where slots and units are there for it and the parking record is INVALID (R36, R188). -/
theorem arbiter_starts {s : State} (g : Option Nat) {ps : List (Fin 8 × Nat)} (some_axis : ps ≠ [])
    (single : g = none → ps.length = 1) (ready : ∀ x ∈ ps, (s.axis x.1).activity = .idle ∧ s.slotOf x.1 = none)
    (queue : s.claims.queue = claimsOf g ps) (enough : ps.length ≤ s.freeSlots) (supply : s.gov.supply = .normal)
    (units : s.unitsOfStart (claimsOf g ps) + s.motorUnits + s.fixedPump ≤ s.gov.limit) (standing : s.power.standing = .invalid) :
    s.arbiter = s.startUnits (claimsOf g ps) := by
  have length : (claimsOf g ps).length = ps.length := List.length_map _
  have fits : s.motorFits (s.unitsOfStart (claimsOf g ps)) false = true := by simp [State.motorFits, supply, units]
  simp [State.arbiter, queue, startUnit_free g some_axis single ready, not_brace g some_axis, length, Nat.not_lt.mpr enough, fits,
    standing, State.invalidateParking]

/-- What is reported of a unit that drives. -/
theorem startReports_drives {s : State} (g : Option Nat) {ps : List (Fin 8 × Nat)}
    (running : ∀ x ∈ ps, (s.axis x.1).activity = .running) :
    s.startReports (claimsOf g ps) = (ps.map Prod.fst).map (.started .plan) := by
  induction ps with
  | nil => rfl
  | cons x ps ih =>
    have rest := ih fun y hy => running y (List.mem_cons_of_mem _ hy)
    rw [State.startReports, claimsOf, List.map_cons, List.flatMap_cons]
    rw [State.startReports, claimsOf] at rest
    rw [rest]
    simp [running x List.mem_cons_self]

/-- The start of a unit, from the slots that it takes. -/
theorem startUnits_drives {s : State} (g : Option Nat) {ps : List (Fin 8 × Nat)} (claims : Claims) (different : (ps.map Prod.fst).Nodup)
    (takes : ∀ t : State, t.axes = s.axes → t.claims = s.claims →
      (claimsOf g ps).foldl (fun t e => t.takeStart e) t = { t with claims := claims })
    (far : ∀ x ∈ ps, (s.axis x.1).cfg.tolerance < Spec.apart (s.axis x.1).position x.2) :
    ∃ gov cells zones m, s.startUnits (claimsOf g ps) = { s with
      axes := startedAxes s ps s.axes, claims := claims, gov := gov, cells := cells, zones := zones, link := m
      agenda := (ps.map Prod.fst).map (.started .plan) ++ .arbiter :: .planCheck :: .braceCheck :: s.agenda } := by
  obtain ⟨gov, cells, z, l, found⟩ := findUnits_frame (s.unitsOfStart (claimsOf g ps)) s
  obtain ⟨zones, m, charged⟩ := recomputeFrom_frame
    ({ s with gov := gov, cells := cells, zones := z, link := l, claims := claims } : State).residual
    { s with gov := gov, cells := cells, zones := z, link := l, claims := claims }
  obtain ⟨n, driven⟩ := foldl_startAxis s g ps { s with gov := gov, cells := cells, zones := zones, link := m, claims := claims } different
    (fun _ _ => rfl) far
  have reports := startReports_drives (s := { s with
      axes := startedAxes s ps s.axes, gov := gov, cells := cells, zones := zones, link := n, claims := claims }) g (ps := ps)
    fun x hx => startedAxes_running s ps s.axes x.1 (Or.inl (List.mem_map_of_mem hx))
  refine ⟨gov, cells, zones, n, ?_⟩
  have taken := takes { s with gov := gov, cells := cells, zones := z, link := l } rfl rfl
  simp only [State.startUnits, found, taken, State.recompute, charged, driven, reports]
  simp [State.call]

end Sys2Proof.MovePlans
end

