-- ==== Sys2Proof/Proofs/MovePlans/Launch.lean ====
section
/-! A chain placed in an empty CURRENT, from its beginning to the end of the step: at a pause, at a MOVE that starts, and at a MOVE that
waits for slots. -/

namespace Sys2Proof.MovePlans

open Sys2Proof.Machine

/-! ### A unit's starts are reported -/

/-- The report of a start makes its entry STARTED (R69). -/
theorem planStarted_queued {s : State} {q : Plan} {i : Fin 32} {flight : List (Fin 8)} {done rest : List (Fin 8 × Nat)} {x : Fin 8 × Nat}
    (current : s.plans.current = some q) (h : AtMove i (entriesOf .started done ++ entriesOf .queued (x :: rest)) flight q)
    (different : ((done ++ x :: rest).map Prod.fst).Nodup) :
    ∃ r, AtMove i (entriesOf .started (done ++ [x]) ++ entriesOf .queued rest) flight r ∧ s.planStarted x.1 = s.setCurrent (some r) := by
  have stood := map_standing .queued .started done rest x different
  have waiting : q.entries.any (fun e => e.axis == x.1 && e.standing == .queued) = true := by
    rw [h.entries]
    simp [entriesOf]
  refine ⟨q.setStanding x.1 .started, ⟨h.running, h.notAtEnd, h.step, by rw [Plan.setStanding, h.entries, stood], h.inFlight⟩, ?_⟩
  simp only [State.planStarted, State.onCurrent, State.setCurrent, current, Option.map_some, waiting, if_true]

theorem reaches_started {s : State} {q : Plan} {i : Fin 32} {flight : List (Fin 8)} {done rest : List (Fin 8 × Nat)} {ws : List Work}
    (agenda : s.agenda = (rest.map Prod.fst).map (.started .plan) ++ ws) (current : s.plans.current = some q)
    (h : AtMove i (entriesOf .started done ++ entriesOf .queued rest) flight q) (different : ((done ++ rest).map Prod.fst).Nodup) :
    ∃ r, AtMove i (entriesOf .started (done ++ rest)) flight r
      ∧ Reaches rest.length s { s with plans.current := some r, agenda := ws } := by
  induction rest generalizing s done q with
  | nil =>
    refine ⟨q, by simpa [entriesOf] using h, ?_⟩
    rw [show s = { s with plans.current := some q, agenda := ws } by rw [← current, ← show s.agenda = ws from agenda]]
    exact Reaches.refl _
  | cons x rest ih =>
    obtain ⟨r, stood, started⟩ := planStarted_queued (s := { s with agenda := (rest.map Prod.fst).map (.started .plan) ++ ws }) current h
      different
    obtain ⟨t, all, reached⟩ := ih (s := ({ s with agenda := (rest.map Prod.fst).map (.started .plan) ++ ws } : State).setCurrent (some r))
      rfl rfl stood (by simpa using different)
    refine ⟨t, by simpa using all, ?_⟩
    rw [List.length_cons, Nat.add_comm]
    exact (Reaches.one agenda started).trans reached

/-- A step with an entry that is not done goes on (R69). -/
theorem planCheck_moving {s : State} {q : Plan} {i : Fin 32} {es : List StepEntry} {flight : List (Fin 8)} {targets : List AxisTarget}
    {group wait : Bool} {next : Option (Fin 32)} (current : s.plans.current = some q) (h : AtMove i es flight q)
    (table : s.plans.table[i] = some (.move targets group wait next)) (undone : ∃ e ∈ es, e.standing.done wait = false) :
    s.planCheck = s := by
  have unfinished : s.stepFinished q = false := by
    obtain ⟨e, he, notDone⟩ := undone
    simp only [State.stepFinished, h.step, table, h.entries]
    exact List.all_eq_false.mpr ⟨e, he, by simp [notDone]⟩
  simp [State.planCheck, current, h.running, h.notAtEnd, unfinished]

/-- After a unit's starts the arbiter finds no other, and the plan and the brace go on as they were. -/
theorem reaches_judged {u : State} {q : Plan} {i : Fin 32} {es : List StepEntry} {flight : List (Fin 8)} {targets : List AxisTarget}
    {group wait : Bool} {next : Option (Fin 32)} {ws : List Work}
    (agenda : u.agenda = .arbiter :: .planCheck :: .braceCheck :: .planCheck :: ws) (unqueued : u.claims.queue = [])
    (unbraced : u.brace.state = .idle) (current : u.plans.current = some q) (h : AtMove i es flight q)
    (table : u.plans.table[i] = some (.move targets group wait next)) (undone : ∃ e ∈ es, e.standing.done wait = false) :
    Reaches 4 u { u with agenda := ws } := by
  have quiet (w : Work) (ws : List Work) (e : ∀ ws, doWork w { u with agenda := ws } = { u with agenda := ws }) :
      Reaches 1 { u with agenda := w :: ws } { u with agenda := ws } := Reaches.one rfl (e ws)
  have waits : ∀ ws, doWork .planCheck { u with agenda := ws } = { u with agenda := ws } :=
    fun ws => planCheck_moving (s := { u with agenda := ws }) current h table undone
  rw [show u = { u with agenda := .arbiter :: .planCheck :: .braceCheck :: .planCheck :: ws } by rw [← agenda]]
  exact (((quiet .arbiter _ fun ws => arbiter_unqueued (s := { u with agenda := ws }) unqueued).trans (quiet .planCheck _ waits)).trans
    (quiet .braceCheck _ fun ws => braceCheck_idle (s := { u with agenda := ws }) unbraced)).trans (quiet .planCheck _ waits)

/-! ### A chain that has been placed -/

/-- A chain in CURRENT that has yet to begin (R63, R64). -/
structure Placed (i : Fin 32) (p : Plan) : Prop where
  running : p.state = .running
  fresh : p.step = none
  chain : p.kind = .chain i
  notAtEnd : p.atEnd = false
  noneInFlight : p.inFlight = []

/-- The state after a chain has been placed in CURRENT. -/
def launched (p : Plan) (m : Link) (s : State) : State := ({ s with plans.current := some p, link := m } : State).call [.planBegin]

section
variable {s : State} {i : Fin 32} {p : Plan} {m : Link}

/-- At a PAUSE the plan has the pause's time (R70). -/
theorem launched_pause {length : Nat} {next : Option (Fin 32)} (h : Placed i p) (agenda : s.agenda = [])
    (power : s.power.state = .awake) (table : s.plans.table[i] = some (.pause length next)) :
    ∃ n, (launched p m s).finish
      = { s with plans.current := some { entering (.descriptor i) p with pauseLeft := some (length * 10) }, link := n } := by
  have begun := planBegin_pause (s := { s with plans.current := some p, link := m }) rfl h.running h.fresh h.chain table
  obtain ⟨end_eq, _⟩ := (reaches_planBegin begun).finish agenda power (by decide)
  exact ⟨_, end_eq⟩

variable {ps : List (Fin 8 × Nat)} {group wait : Bool} {next : Option (Fin 32)}

/-- At a MOVE of free axes the plan's claims are queued, before the arbiter runs. -/
theorem reaches_claimed (h : Placed i p) (power : s.power.state = .awake) (unbraced : s.brace.state = .idle)
    (unqueued : s.claims.queue = []) (some_axis : ps ≠ []) (different : (ps.map Prod.fst).Nodup)
    (single : group = false → ∃ x, ps = [x]) (table : s.plans.table[i] = some (.move (targetsOf ps) group wait next))
    (ready : ∀ x ∈ ps, Spec.readyFor s x.1 x.2) :
    ∃ g r n, (g = none → ps.length = 1) ∧ AtMove i (entriesOf .queued ps) (ps.map Prod.fst) r
      ∧ Reaches 2 (launched p m s) (claimed g ps r n (s.call [.planCheck])) := by
  obtain ⟨q, at_move, begun⟩ := planBegin_move (s := { s with plans.current := some p, link := m }) rfl h.running h.fresh h.chain
    h.notAtEnd h.noneInFlight some_axis table ready
  have begins := reaches_planBegin begun
  cases group with
  | false =>
    obtain ⟨x, rfl⟩ := single rfl
    obtain ⟨r, n, queued, claim⟩ := planClaim_ready
      (s := { s with plans.current := some q, link := m, agenda := .planCheck :: s.agenda }) rfl at_move (ready x List.mem_cons_self)
      power unbraced unqueued
    exact ⟨none, r, n, fun _ => rfl, queued, begins.trans (Reaches.one rfl claim)⟩
  | true =>
    obtain ⟨g, r, n, queued, claim⟩ := planClaimGroup_ready
      (s := { s with plans.current := some q, link := m, agenda := .planCheck :: s.agenda }) rfl at_move some_axis different ready power
      unbraced unqueued
    exact ⟨some g, r, n, nofun, queued, begins.trans (Reaches.one rfl claim)⟩

/-- With too few slots the whole unit waits in the queue (R36). -/
theorem launched_waits (h : Placed i p) (agenda : s.agenda = []) (power : s.power.state = .awake) (unbraced : s.brace.state = .idle)
    (unqueued : s.claims.queue = []) (some_axis : ps ≠ []) (different : (ps.map Prod.fst).Nodup)
    (single : group = false → ∃ x, ps = [x]) (table : s.plans.table[i] = some (.move (targetsOf ps) group wait next))
    (ready : ∀ x ∈ ps, Spec.readyFor s x.1 x.2) (few : s.freeSlots < ps.length) :
    ∃ g r n, (g = none → ps.length = 1) ∧ AtMove i (entriesOf .queued ps) (ps.map Prod.fst) r
      ∧ (launched p m s).finish = { s with
          claims := { s.claims with owners := ownedBy ps s.claims.owners, queue := claimsOf g ps }
          plans.current := some r, link := n } := by
  obtain ⟨g, r, n, alone, queued, claim⟩ := reaches_claimed (m := m) h power unbraced unqueued some_axis different single table ready
  have blocks := arbiter_blocks (s := { s with
      claims := { s.claims with owners := ownedBy ps s.claims.owners, queue := claimsOf g ps }
      plans.current := some r, link := n, agenda := .planCheck :: s.agenda }) g some_axis alone
    (fun x hx => ⟨(ready x hx).1, (ready x hx).2.2.2.1⟩) rfl few
  have waits := planCheck_moving (s := { s with
      claims := { s.claims with owners := ownedBy ps s.claims.owners, queue := claimsOf g ps }
      plans.current := some r, link := n }) rfl queued table
    (by obtain ⟨x, ps, rfl⟩ := List.exists_cons_of_ne_nil some_axis; exact ⟨_, List.mem_cons_self, rfl⟩)
  obtain ⟨end_eq, _⟩ := ((claim.trans (Reaches.one rfl blocks)).trans (reaches_planCheck waits)).finish agenda power (by decide)
  exact ⟨g, r, _, alone, queued, end_eq⟩

/-- With slots and units for it the whole unit starts (R36, R37). -/
theorem launched_starts {slots : Vector (Option Slot) 3} (h : Placed i p) (agenda : s.agenda = []) (power : s.power.state = .awake)
    (unbraced : s.brace.state = .idle) (unqueued : s.claims.queue = []) (some_axis : ps ≠ []) (different : (ps.map Prod.fst).Nodup)
    (single : group = false → ∃ x, ps = [x]) (table : s.plans.table[i] = some (.move (targetsOf ps) group true next))
    (ready : ∀ x ∈ ps, Spec.readyFor s x.1 x.2) (enough : ps.length ≤ s.freeSlots) (supply : s.gov.supply = .normal)
    (units : s.unitsOfStart (claimsOf none ps) + s.motorUnits + s.fixedPump ≤ s.gov.limit) (standing : s.power.standing = .invalid)
    (takes : ∀ (g : Option Nat) (t : State), t.axes = s.axes → t.claims.slots = s.claims.slots → t.claims.queue = claimsOf g ps →
      (claimsOf g ps).foldl (fun t e => t.takeStart e) t = { t with claims := { t.claims with slots := slots, queue := [] } })
    (few : ps.length ≤ 8) :
    ∃ gov cells zones r n, AtMove i (entriesOf .started ps) (ps.map Prod.fst) r
      ∧ (launched p m s).finish = { s with
          axes := startedAxes s ps s.axes
          claims := { s.claims with owners := ownedBy ps s.claims.owners, slots := slots, queue := [] }
          gov := gov, cells := cells, zones := zones, plans.current := some r, link := n } := by
  obtain ⟨g, r, n, alone, queued, claim⟩ := reaches_claimed (m := m) h power unbraced unqueued some_axis different single table ready
  have sum : s.unitsOfStart (claimsOf g ps) = s.unitsOfStart (claimsOf none ps) := by
    simp [State.unitsOfStart, claimsOf, Function.comp_def]
  have starts := arbiter_starts (s := { s with
      claims := { s.claims with owners := ownedBy ps s.claims.owners, queue := claimsOf g ps }
      plans.current := some r, link := n, agenda := .planCheck :: s.agenda }) g some_axis alone
    (fun x hx => ⟨(ready x hx).1, (ready x hx).2.2.2.1⟩) rfl enough supply (sum ▸ units) standing
  obtain ⟨gov, cells, zones, l, drives⟩ := startUnits_drives (s := { s with
      claims := { s.claims with owners := ownedBy ps s.claims.owners, queue := claimsOf g ps }
      plans.current := some r, link := n, agenda := .planCheck :: s.agenda }) g
    { s.claims with owners := ownedBy ps s.claims.owners, slots := slots, queue := [] } different
    (fun t axes claims => by
      have slotted := takes g t axes (by rw [claims]) (by rw [claims])
      rw [claims] at slotted
      exact slotted)
    (fun x hx => (ready x hx).2.2.2.2.2.2)
  obtain ⟨q, started, reports⟩ := reaches_started (s := { s with
      axes := startedAxes s ps s.axes
      claims := { s.claims with owners := ownedBy ps s.claims.owners, slots := slots, queue := [] }
      gov := gov, cells := cells, zones := zones, plans.current := some r, link := l
      agenda := (ps.map Prod.fst).map (.started .plan) ++ .arbiter :: .planCheck :: .braceCheck :: .planCheck :: s.agenda })
    (done := []) rfl rfl queued different
  have judged := reaches_judged (u := { s with
      axes := startedAxes s ps s.axes
      claims := { s.claims with owners := ownedBy ps s.claims.owners, slots := slots, queue := [] }
      gov := gov, cells := cells, zones := zones, plans.current := some q, link := l
      agenda := .arbiter :: .planCheck :: .braceCheck :: .planCheck :: s.agenda }) rfl rfl unbraced rfl started table
    (by obtain ⟨x, ps, rfl⟩ := List.exists_cons_of_ne_nil some_axis; exact ⟨_, List.mem_cons_self, rfl⟩)
  obtain ⟨end_eq, _⟩ := (((claim.trans (Reaches.one rfl (starts.trans drives))).trans reports).trans judged).finish agenda power
    (by simp only [Config.agendaFuel]; omega)
  exact ⟨gov, cells, zones, q, _, started, end_eq⟩

end

end Sys2Proof.MovePlans
end

