-- ==== Sys2Proof/Proofs/MovePlans/Run.lean ====
section
/-! PLAN_RUN: its reply, and the plan that it places (O24). -/

namespace Sys2Proof.MovePlans

open Sys2Proof.Machine

/-! ### Reading the payload -/

/-- The policy that a byte in range names (R64). -/
def policyOf (p : Byte) : Policy := if p = 0 then .stopError else .endQuiet

theorem readPlanRun_of {i p n : Byte} (h : i.toNat < 32 ∧ p.toNat ≤ 1 ∧ n.toNat ≤ 1) :
    readPlanRun [i, p, n] = some (⟨i.toNat, h.1⟩, policyOf p, n == 1) := by
  obtain ⟨start, policy, notify⟩ := h
  have policies : p = 0 ∨ p = 1 := by bv_omega
  have notifies : n = 0 ∨ n = 1 := by bv_omega
  rcases policies with rfl | rfl <;> rcases notifies with rfl | rfl <;> simp [readPlanRun, below, start, policyOf]

theorem readPlanRun_out {i p n : Byte} (h : ¬ (i.toNat < 32 ∧ p.toNat ≤ 1 ∧ n.toNat ≤ 1)) : readPlanRun [i, p, n] = none := by
  by_cases start : i.toNat < 32
  · by_cases policy : p = 0#8 ∨ p = 1#8
    · have notify : ¬ n = 0#8 ∧ ¬ n = 1#8 := by bv_omega
      rcases policy with rfl | rfl <;> simp [readPlanRun, below, start, notify]
    · simp [readPlanRun, below, start, not_or.mp policy]
  · simp [readPlanRun, below, start]

/-! ### The reply -/

/-- The reply to a PLAN_RUN with values in range (R64). -/
def runReply (s : State) (start : Fin 32) : ReplyStatus :=
  if s.brace.state ≠ .idle then .refused
  else if s.plans.vehicle = .moving then .refused
  else if s.plans.table[start] = none then .refused
  else if s.plans.current.isSome = true ∧ s.plans.next.isSome = true then .busy
  else .accepted

/-- The reply to a PLAN_RUN (R64, R175). -/
def runStatus (s : State) (i p n : Byte) : ReplyStatus :=
  if h : i.toNat < 32 ∧ p.toNat ≤ 1 ∧ n.toNat ≤ 1 then runReply s ⟨i.toNat, h.1⟩ else .badParameter

theorem runStatus_accepted {s : State} {i p n : Byte} (h : runStatus s i p n = .accepted) :
    ∃ range : i.toNat < 32 ∧ p.toNat ≤ 1 ∧ n.toNat ≤ 1, runReply s ⟨i.toNat, range.1⟩ = .accepted := by
  unfold runStatus at h
  split at h
  next range => exact ⟨range, h⟩
  · cases h

theorem runReply_accepted {s : State} {start : Fin 32} (h : runReply s start = .accepted) :
    s.brace.state = .idle ∧ s.plans.vehicle ≠ .moving ∧ s.plans.table[start].isNone = false
      ∧ (s.plans.current.isSome → s.plans.next = none) := by
  unfold runReply at h
  split_ifs at h with unbraced vehicle table full
  refine ⟨not_not.mp unbraced, vehicle, by simpa [Option.ne_none_iff_isSome] using table, fun current => ?_⟩
  simpa [current] using full

/-- The plan that PLAN_RUN makes (R64). -/
def chainOf (start : Fin 32) (p n : Byte) : Plan := Plan.new (.chain start) .link (policyOf p) (n == 1) .empty

theorem chainOf_placed (start : Fin 32) (p n : Byte) : Placed start (chainOf start p n) := ⟨rfl, rfl, rfl, rfl, rfl⟩

theorem runPlan_rejected {s : State} {start : Fin 32} (policy : Policy) (notify : Bool) (power : s.power.state = .awake)
    (h : runReply s start ≠ .accepted) : s.runPlan start policy notify = (s, runReply s start, none) := by
  have full (current : s.plans.current.isSome) (next : s.plans.next.isSome) : s.planSlot = none := by
    simp [State.planSlot, Option.isSome_iff_ne_none.mp current, Option.isSome_iff_ne_none.mp next]
  by_cases unbraced : s.brace.state = .idle
  · by_cases vehicle : s.plans.vehicle = .moving
    · simp [runReply, State.runPlan, power, unbraced, vehicle]
    · by_cases table : s.plans.table[start] = none
      · simp only [State.runPlan, runReply, power, unbraced, vehicle, table]
        rfl
      · by_cases occupied : s.plans.current.isSome = true ∧ s.plans.next.isSome = true
        · simp only [State.runPlan, runReply, power, unbraced, vehicle, Option.isNone_iff_eq_none, table, occupied,
            full occupied.1 occupied.2]
          rfl
        · exact absurd (by simp only [runReply, unbraced, vehicle, table, occupied]; rfl) h
  · simp [runReply, State.runPlan, power, unbraced]

theorem runPlan_accepted {s : State} {start : Fin 32} {slot : PlanSlot} (policy : Policy) (notify : Bool)
    (power : s.power.state = .awake) (h : runReply s start = .accepted) (taken : s.planSlot = some slot) :
    s.runPlan start policy notify = (s.placePlan slot (.new (.chain start) .link policy notify .empty), .accepted, some slot) := by
  obtain ⟨unbraced, vehicle, table, _⟩ := runReply_accepted h
  simp only [State.runPlan, power, unbraced, vehicle, table, taken, ne_eq, not_true_eq_false, if_false, Bool.false_eq_true]

/-! ### The command -/

/-- The act of PLAN_RUN with values in range (R64). -/
def runAct (x : Fin 32 × Policy × Bool) (t : State) : State × Reply :=
  let (run, reply, slot) := t.runPlan x.1 x.2.1 x.2.2
  (run, (reply, slotData slot))

theorem exec_planRun (s : State) (tag : Byte) (payload : List Byte) :
    exec (.planRun tag payload) s = command 0x21 tag payload (asked (readPlanRun payload) runAct) s := rfl

/-- The end of a PLAN_RUN that has been heard. -/
def runEnd (c : Command) (l : Link) (i p n : Byte) (s : State) : State :=
  (replied c (asked (readPlanRun [i, p, n]) runAct { s with link := l })).finish

section
variable {s : State} {c : Command} {l : Link} {i p n : Byte}

/-- A run that is not accepted changes nothing (R64). -/
theorem runEnd_rejected (heard : Heard c s.link l) (agenda : s.agenda = []) (power : s.power.state = .awake)
    (rejected : runStatus s i p n ≠ .accepted) :
    ∃ m, runEnd c l i p n s = { s with link := m } ∧ s.link.answered c (runStatus s i p n) .none m := by
  have acted : asked (readPlanRun [i, p, n]) runAct { s with link := l } = ({ s with link := l }, runStatus s i p n, .none) := by
    unfold runStatus at rejected ⊢
    split at rejected
    next range =>
      rw [readPlanRun_of range, asked, runAct, runPlan_rejected (s := { s with link := l }) _ _ power rejected, dif_pos range]
      rfl
    next out =>
      rw [readPlanRun_out out, dif_neg out]
      rfl
  rw [runEnd, acted]
  exact replied_quiet heard (carriesOn_refl l) agenda power

/-- A run that is accepted places its chain (R64). -/
theorem runEnd_placed {slot : PlanSlot} (power : s.power.state = .awake) (accepted : runStatus s i p n = .accepted)
    (taken : s.planSlot = some slot) (range : i.toNat < 32) :
    runEnd c l i p n s = (replied c (({ s with link := l } : State).placePlan slot (chainOf ⟨i.toNat, range⟩ p n), .accepted,
      .content (.planSlot slot))).finish := by
  obtain ⟨inRange, reply⟩ := runStatus_accepted accepted
  rw [runEnd, readPlanRun_of inRange, asked, runAct, runPlan_accepted (s := { s with link := l }) _ _ power reply taken]
  rfl

/-- With CURRENT empty the chain is placed there, to begin (R64). -/
theorem runEnd_current (power : s.power.state = .awake) (accepted : runStatus s i p n = .accepted) (free : s.plans.current = none)
    (range : i.toNat < 32) : ∃ m, m.slot = .replied c .accepted (.content (.planSlot .current))
      ∧ runEnd c l i p n s = (launched (chainOf ⟨i.toNat, range⟩ p n) m s).finish := by
  refine ⟨{ (({ s with link := l } : State).post .plan).link with slot := .replied c .accepted (.content (.planSlot .current)) }, rfl, ?_⟩
  exact (runEnd_placed (slot := .current) power accepted (by simp [State.planSlot, free]) range).trans (congrArg State.finish rfl)

/-- With CURRENT occupied the chain waits in NEXT (R64). -/
theorem runEnd_next (heard : Heard c s.link l) (agenda : s.agenda = []) (power : s.power.state = .awake)
    (accepted : runStatus s i p n = .accepted) (occupied : s.plans.current.isSome) (range : i.toNat < 32) :
    ∃ m, runEnd c l i p n s = { s with plans.next := some { chainOf ⟨i.toNat, range⟩ p n with state := .waiting }, link := m }
      ∧ s.link.answered c .accepted (.content (.planSlot .next)) m := by
  obtain ⟨_, reply⟩ := runStatus_accepted accepted
  obtain ⟨_, _, _, next⟩ := runReply_accepted reply
  have taken : s.planSlot = some .next := by simp [State.planSlot, next occupied, Option.isSome_iff_ne_none.mp occupied]
  rw [runEnd_placed power accepted taken range]
  exact replied_quiet (t := { s with plans.next := some { chainOf ⟨i.toNat, range⟩ p n with state := .waiting } }) heard
    (post_carriesOn .plan { s with link := l }) agenda power

end

/-! ### A MOVE of one axis, and of two -/

section
variable {s : State} {i : Fin 32} {p : Plan} {m : Link} {next : Option (Fin 32)}

/-- One axis that can start is driven at once (R37). -/
theorem launched_single {a : Fin 8} {target : Nat} {group : Bool} (h : Placed i p) (free : Spec.freeToStart s a)
    (ready : Spec.readyFor s a target) (table : s.plans.table[i] = some (.move [⟨a, .absolute target⟩] group true next)) :
    ∃ claims gov cells zones r n, AtMove i [⟨a, some target, .started⟩] [a] r ∧ claims.owners = s.claims.owners.set a .plan
      ∧ (launched p m s).finish = { s with
          axes := s.axes.set a (Spec.targeted target (s.axis a)), claims := claims
          gov := gov, cells := cells, zones := zones, plans.current := some r, link := n } := by
  obtain ⟨⟨agenda, power, _⟩, ⟨unqueued, _, _, unbraced⟩, _, _, _, _, slot0, supply, standing, units⟩ := free
  obtain ⟨gov, cells, zones, r, n, started, end_eq⟩ := launched_starts (m := m) (ps := [(a, target)]) h agenda power unbraced unqueued
    (by simp) (by simp) (fun _ => ⟨_, rfl⟩) table (by simpa using ready) (freeSlots_one slot0) supply
    (by simpa [State.unitsOfStart, claimsOf, State.fixedPump] using units) standing
    (slots := s.claims.slots.set 0 (some (planSlotOf s a)))
    (fun g t axes slots queue => by
      rw [takeStart_first g (a, target) (by rw [slots]; exact slot0) queue, slots]
      simp only [planSlotOf, State.axis, axes]) (by simp)
  exact ⟨_, gov, cells, zones, r, n, started, rfl, end_eq⟩

variable {a c : Fin 8} {targetA targetC : Nat}

/-- Two axes with slots for both are driven together (R36, R37). -/
theorem launched_pair (h : Placed i p) (agenda : s.agenda = []) (power : s.power.state = .awake) (unbraced : s.brace.state = .idle)
    (unqueued : s.claims.queue = []) (apart : a ≠ c) (readyA : Spec.readyFor s a targetA) (readyC : Spec.readyFor s c targetC)
    (table : s.plans.table[i] = some (.move [⟨a, .absolute targetA⟩, ⟨c, .absolute targetC⟩] true true next))
    (slot0 : s.claims.slots[0] = none) (slot1 : s.claims.slots[1] = none) (supply : s.gov.supply = .normal)
    (standing : s.power.standing = .invalid) (noCell : s.braceCellQueued = false)
    (units : (s.axis a).cfg.ratedUnits + (s.axis c).cfg.ratedUnits + s.motorUnits ≤ s.gov.limit) :
    ∃ gov cells zones r n, AtMove i [⟨a, some targetA, .started⟩, ⟨c, some targetC, .started⟩] [a, c] r
      ∧ (launched p m s).finish = { s with
          axes := (s.axes.set a (Spec.targeted targetA (s.axis a))).set c (Spec.targeted targetC (s.axis c))
          claims := { s.claims with
            owners := (s.claims.owners.set a .plan).set c .plan
            slots := (s.claims.slots.set 0 (some (planSlotOf s a))).set 1 (some (planSlotOf s c)), queue := [] }
          gov := gov, cells := cells, zones := zones, plans.current := some r, link := n } :=
  launched_starts (group := true) (ps := [(a, targetA), (c, targetC)]) h agenda power unbraced unqueued
    (by simp) (by simpa using apart) nofun table (by simpa using ⟨readyA, readyC⟩) (freeSlots_two slot0 slot1) supply
    (by simpa [State.unitsOfStart, claimsOf, State.fixedPump, noCell] using units) standing
    (fun g t axes slots queue => by
      rw [takeStart_two g (a, targetA) (c, targetC) apart (by rw [slots]; exact slot0) (by rw [slots]; exact slot1) queue, slots]
      simp only [planSlotOf, State.axis, axes]) (by simp)

/-- Two axes without slots for both wait together (R36). -/
theorem launched_pair_waits {wait : Bool} (h : Placed i p) (agenda : s.agenda = []) (power : s.power.state = .awake)
    (unbraced : s.brace.state = .idle) (unqueued : s.claims.queue = []) (apart : a ≠ c) (readyA : Spec.readyFor s a targetA)
    (readyC : Spec.readyFor s c targetC)
    (table : s.plans.table[i] = some (.move [⟨a, .absolute targetA⟩, ⟨c, .absolute targetC⟩] true wait next))
    (slot1 : s.claims.slots[1].isSome) (slot2 : s.claims.slots[2].isSome) :
    ∃ g r n, AtMove i [⟨a, some targetA, .queued⟩, ⟨c, some targetC, .queued⟩] [a, c] r
      ∧ (launched p m s).finish = { s with
          claims := { s.claims with
            owners := (s.claims.owners.set a .plan).set c .plan
            queue := [⟨a, .plan, .targeted, .target targetA, some g⟩, ⟨c, .plan, .targeted, .target targetC, some g⟩] }
          plans.current := some r, link := n } := by
  obtain ⟨g, r, n, alone, queued, end_eq⟩ := launched_waits (m := m) (group := true) (ps := [(a, targetA), (c, targetC)]) h agenda power unbraced unqueued
    (by simp) (by simpa using apart) nofun table (by simpa using ⟨readyA, readyC⟩) (freeSlots_few slot1 slot2)
  cases g with
  | none => cases alone rfl
  | some g => exact ⟨g, r, n, queued, end_eq⟩

end

/-- Settles O24, by the reply, and for a run that is accepted by the slot that it takes and its first descriptor. -/
theorem planRunFollowsItsTable : Obligations.PlanRunFollowsItsTable := by
  intro s tag i p n h
  obtain ⟨⟨agenda, power, _⟩, _⟩ := id h
  obtain ⟨l, heard, taken⟩ := command_taken h 0x21 tag [i, p, n] (asked (readPlanRun [i, p, n]) runAct)
  have idle (accepted : runStatus s i p n = .accepted) : s.brace.state = .idle :=
    let ⟨_, reply⟩ := runStatus_accepted accepted
    (runReply_accepted reply).1
  refine ⟨runEnd ⟨0x21, tag, [i, p, n]⟩ l i p n s, runStatus s i p n, (exec_planRun s tag _).trans taken, rfl, ?_, ?_, ?_, ?_, ?_, ?_⟩
  · intro rejected
    obtain ⟨m, end_eq, answered⟩ := runEnd_rejected heard agenda power rejected
    rw [end_eq]
    exact ⟨rfl, by rw [show m = _ from answered]⟩
  · intro accepted free
    obtain ⟨range, _⟩ := runStatus_accepted accepted
    obtain ⟨m, slot, placed⟩ := runEnd_current (c := ⟨0x21, tag, [i, p, n]⟩) (l := l) power accepted free range.1
    rw [placed]
    exact (finish_slot _).trans slot
  · intro accepted free range length next table
    obtain ⟨m, _, placed⟩ := runEnd_current (c := ⟨0x21, tag, [i, p, n]⟩) (l := l) power accepted free range
    obtain ⟨n', end_eq⟩ := launched_pause (m := m) (chainOf_placed ⟨i.toNat, range⟩ p n) agenda power table
    rw [placed, end_eq]
    exact ⟨_, rfl, rfl, rfl, rfl, rfl, rfl, rfl, rfl, rfl⟩
  · intro accepted a range target travel group next free referenced known above below far table
    obtain ⟨_, ⟨_, _, current, _⟩, activity, latch, unowned, slotless, _⟩ := id free
    obtain ⟨m, _, placed⟩ := runEnd_current (c := ⟨0x21, tag, [i, p, n]⟩) (l := l) power accepted current range
    obtain ⟨claims, gov, cells, zones, r, n', started, owners, end_eq⟩ := launched_single (m := m)
      (chainOf_placed ⟨i.toNat, range⟩ p n) free
      ⟨activity, latch, unowned, slotless, referenced, ⟨travel, known, above, below⟩, far⟩ table
    rw [placed, end_eq]
    exact ⟨rfl, rfl, by simp [State.owner, owners], r, rfl, started.running, started.entries, started.inFlight⟩
  · intro accepted a c range targetA targetC wait next apart current unqueued supply standing noCell readyA readyC slot0 units table
    obtain ⟨m, _, placed⟩ := runEnd_current (c := ⟨0x21, tag, [i, p, n]⟩) (l := l) power accepted current range
    constructor
    · rintro slot1 rfl
      obtain ⟨gov, cells, zones, r, n', started, end_eq⟩ := launched_pair (m := m) (chainOf_placed ⟨i.toNat, range⟩ p n) agenda power
        (idle accepted) unqueued apart readyA readyC table slot0 slot1 supply standing noCell units
      rw [placed, end_eq]
      exact ⟨rfl, by rw [← unqueued]; rfl, r, rfl, started.entries, started.inFlight⟩
    · intro slot1 slot2
      obtain ⟨g, r, n', queued, end_eq⟩ := launched_pair_waits (m := m) (chainOf_placed ⟨i.toNat, range⟩ p n) agenda power
        (idle accepted) unqueued apart readyA readyC table slot1 slot2
      rw [placed, end_eq]
      exact ⟨rfl, ⟨g, rfl⟩, r, rfl, queued.entries⟩
  · intro accepted occupied range
    obtain ⟨m, end_eq, answered⟩ := runEnd_next heard agenda power accepted occupied range
    rw [end_eq]
    exact ⟨_, rfl, answered, rfl, rfl, rfl, rfl, rfl, rfl, rfl, rfl, rfl⟩

end Sys2Proof.MovePlans
end
